-- ==== Sys2Proof/Word.lean ====
section
/-! DEFINITION. The word types of the block: bytes, nibbles, and the 32-bit and 64-bit values the
spec numbers bit by bit (00_scope.md R18). Every value is unsigned. -/

namespace Sys2Proof

/-- A byte (R18). -/
abbrev Byte := BitVec 8

/-- A 4-bit field: a cable number, a CIN or an OP (R101, R120). -/
abbrev Nibble := BitVec 4

/-- A packet in P notation, an ARG, a counter or a length (R15, R103). -/
abbrev Word32 := BitVec 32

/-- A command word (R120), or a timestamp wide enough for every TS_W (R16). -/
abbrev Word64 := BitVec 64

end Sys2Proof
end

