-- ==== Sys2Proof/Syntax.lean ====
section
/-! DEFINITION. The instructions of the block: one constructor per row of spec/opcode_table.json, with
the operands that row reads. A field the row ignores (30_encoding.md R126, 40_codec.md R141) is no operand. -/

namespace Sys2Proof

/-- What the host presents to the block in one step: a 64-bit command word (30_encoding.md R120), or a raw
4-byte frame from the transport in P notation (R103), which 00_scope.md R11 makes an RX_FRAME of that
packet (log 3). -/
inductive CmdInput where
  | word  (w : Word64)
  | frame (p : Word32)
  deriving DecidableEq, Repr

/-- One constructor per row of spec/opcode_table.json. -/
inductive Instr where
  -- The six commands (30_encoding.md R121).
  | rxFrame (p : Word32)
  | txFixed (cable : Nibble) (len : BitVec 2) (b0 b1 b2 : Byte)
  | txSysex (cable : Nibble) (n : Word32)
  | txComplete
  | read (idx : Byte)
  | reset
  -- The reserved OPs (R127).
  | reservedOp0
  | reservedOp7
  | reservedOp8
  | reservedOp9
  | reservedOpA
  | reservedOpB
  | reservedOpC
  | reservedOpD
  | reservedOpE
  | reservedOpF
  -- TX_FIXED by status class (R112): the words whose LEN and first byte fall in the class.
  | stNoteOff (cable : Nibble) (b0 b1 b2 : Byte)
  | stNoteOn (cable : Nibble) (b0 b1 b2 : Byte)
  | stPolyPressure (cable : Nibble) (b0 b1 b2 : Byte)
  | stControlChange (cable : Nibble) (b0 b1 b2 : Byte)
  | stProgramChange (cable : Nibble) (b0 b1 : Byte)
  | stChannelPressure (cable : Nibble) (b0 b1 : Byte)
  | stPitchBend (cable : Nibble) (b0 b1 b2 : Byte)
  | stSysexComplete2 (cable : Nibble) (b1 : Byte)
  | stSysexComplete3 (cable : Nibble) (b1 b2 : Byte)
  | stMtcQuarterFrame (cable : Nibble) (b1 : Byte)
  | stSongPosition (cable : Nibble) (b1 b2 : Byte)
  | stSongSelect (cable : Nibble) (b1 : Byte)
  | stTuneRequest (cable : Nibble)
  | stRealtime (cable : Nibble) (b0 : Byte)
  | stInvalidData (cable : Nibble) (len : BitVec 2) (b0 b1 b2 : Byte)
  | stInvalidUndefined (cable : Nibble) (len : BitVec 2) (b0 b1 b2 : Byte)
  | stInvalidEox (cable : Nibble) (len : BitVec 2) (b1 b2 : Byte)
  -- The received packet, by row of the packet table (R109).
  | pktReserved0 (cable : Nibble)
  | pktReserved1 (cable : Nibble)
  | pktSyscom2 (cable : Nibble) (b1 b2 : Byte)
  | pktSyscom3 (cable : Nibble) (b1 b2 b3 : Byte)
  | pktSxStart (cable : Nibble) (b2 b3 : Byte)
  | pktSxCont (cable : Nibble) (b1 b2 b3 : Byte)
  | pktSxEnd1 (cable : Nibble)
  | pktSingleSys (cable : Nibble) (b1 : Byte)
  | pktSxComplete2 (cable : Nibble) (b2 : Byte)
  | pktSxEnd2 (cable : Nibble) (b1 b2 : Byte)
  | pktSxComplete3 (cable : Nibble) (b2 b3 : Byte)
  | pktSxEnd3 (cable : Nibble) (b1 b2 b3 : Byte)
  | pktNoteOff (cable : Nibble) (b1 b2 b3 : Byte)
  | pktNoteOn (cable : Nibble) (b1 b2 b3 : Byte)
  | pktPolyPressure (cable : Nibble) (b1 b2 b3 : Byte)
  | pktControlChange (cable : Nibble) (b1 b2 b3 : Byte)
  | pktProgramChange (cable : Nibble) (b1 b2 : Byte)
  | pktChannelPressure (cable : Nibble) (b1 b2 : Byte)
  | pktPitchBend (cable : Nibble) (b1 b2 b3 : Byte)
  | pktSingleByte (cable : Nibble) (b1 : Byte)
  deriving DecidableEq, Repr

end Sys2Proof
end

