-- ==== Sys2Proof/WellFormed.lean ====
section
/-! DEFINITION. Which terms of `Instr` are instructions: those some word or packet decodes to. A row of the
table that fixes a range of a byte (30_encoding.md R109, R112) is checked here. -/

namespace Sys2Proof

/-- First bytes that no message starts with, whatever LEN is (40_codec.md R157). -/
def invalidFirst (b0 : Byte) : Bool :=
  b0 < 0x80 || b0 == 0xF4 || b0 == 0xF5 || b0 == 0xF7

/-- The lengths of the rows of 30_encoding.md R112 that a status byte has; none for a byte of R157. -/
def statusLens (b0 : Byte) : List (BitVec 2) :=
  if b0 < 0x80 then []
  else if b0 < 0xC0 then [3]
  else if b0 < 0xE0 then [2]
  else if b0 < 0xF0 then [3]
  else if b0 = 0xF0 then [2, 3]
  else if b0 = 0xF1 then [2]
  else if b0 = 0xF2 then [3]
  else if b0 = 0xF3 then [2]
  else if b0 = 0xF6 then [1]
  else if b0 < 0xF8 then []
  else [1]

/-- `b0` has the high nibble `hi`: it is in the channel-voice class of that nibble (R144 to R150). -/
def inClass (hi : Nibble) (b0 : Byte) : Bool :=
  b0.extractLsb' 4 4 == hi

/-- The instruction is one that a word or packet stands for: the first byte of a status-class row is in its class
(R112), TX_FIXED itself has a LEN its status byte does not take (log 4), and a general packet row has not the
byte 1 of the row with the wider mask (R109). -/
def Instr.wf : Instr → Bool
  | .rxFrame _ => true
  | .txFixed _ len b0 _ _ => !invalidFirst b0 && !(statusLens b0).contains len
  | .txSysex _ _ => true
  | .txComplete => true
  | .read _ => true
  | .reset => true
  | .reservedOp0 => true
  | .reservedOp7 => true
  | .reservedOp8 => true
  | .reservedOp9 => true
  | .reservedOpA => true
  | .reservedOpB => true
  | .reservedOpC => true
  | .reservedOpD => true
  | .reservedOpE => true
  | .reservedOpF => true
  | .stNoteOff _ b0 _ _ => inClass 0x8 b0
  | .stNoteOn _ b0 _ _ => inClass 0x9 b0
  | .stPolyPressure _ b0 _ _ => inClass 0xA b0
  | .stControlChange _ b0 _ _ => inClass 0xB b0
  | .stProgramChange _ b0 _ => inClass 0xC b0
  | .stChannelPressure _ b0 _ => inClass 0xD b0
  | .stPitchBend _ b0 _ _ => inClass 0xE b0
  | .stSysexComplete2 _ _ => true
  | .stSysexComplete3 _ _ _ => true
  | .stMtcQuarterFrame _ _ => true
  | .stSongPosition _ _ _ => true
  | .stSongSelect _ _ => true
  | .stTuneRequest _ => true
  | .stRealtime _ b0 => decide (0xF8 ≤ b0)
  | .stInvalidData _ _ b0 _ _ => decide (b0 < 0x80)
  | .stInvalidUndefined _ _ b0 _ _ => b0 == 0xF4 || b0 == 0xF5
  | .stInvalidEox _ _ _ _ => true
  | .pktReserved0 _ => true
  | .pktReserved1 _ => true
  | .pktSyscom2 _ _ _ => true
  | .pktSyscom3 _ _ _ _ => true
  | .pktSxStart _ _ _ => true
  | .pktSxCont _ b1 _ _ => b1 != 0xF0
  | .pktSxEnd1 _ => true
  | .pktSingleSys _ b1 => b1 != 0xF7
  | .pktSxComplete2 _ _ => true
  | .pktSxEnd2 _ b1 _ => b1 != 0xF0
  | .pktSxComplete3 _ _ _ => true
  | .pktSxEnd3 _ b1 _ _ => b1 != 0xF0
  | .pktNoteOff _ _ _ _ => true
  | .pktNoteOn _ _ _ _ => true
  | .pktPolyPressure _ _ _ _ => true
  | .pktControlChange _ _ _ _ => true
  | .pktProgramChange _ _ _ => true
  | .pktChannelPressure _ _ _ => true
  | .pktPitchBend _ _ _ _ => true
  | .pktSingleByte _ _ => true

end Sys2Proof
end

