-- ==== Sys2Proof/Decode.lean ====
section
/-! DEFINITION. From words and packets to instructions (30_encoding.md), total, and the encoder back. The rows
of spec/opcode_table.json stand here too, as data, so that the decoder can be held against them. -/

namespace Sys2Proof

/-! ## Fields -/

/-- OP, bits [63:60] of a command word (R120). -/
def fieldOp (w : Word64) : Nibble := w.extractLsb' 60 4

/-- CABLE, bits [59:56] of a command word (R120). -/
def fieldCable (w : Word64) : Nibble := w.extractLsb' 56 4

/-- LEN, bits [33:32] of a command word (R120). -/
def fieldLen (w : Word64) : BitVec 2 := w.extractLsb' 32 2

/-- ARG, bits [31:0] of a command word (R120). -/
def fieldArg (w : Word64) : Word32 := w.extractLsb' 0 32

/-- Byte 0 of a packet or of ARG, bits [31:24] (R103, R123). -/
def byteAt0 (p : Word32) : Byte := p.extractLsb' 24 8

/-- Byte 1 of a packet or of ARG, bits [23:16] (R103, R123). -/
def byteAt1 (p : Word32) : Byte := p.extractLsb' 16 8

/-- Byte 2 of a packet or of ARG, bits [15:8] (R103, R123). -/
def byteAt2 (p : Word32) : Byte := p.extractLsb' 8 8

/-- Byte 3 of a packet, bits [7:0] (R103); ARG[7:0] is the index of READ (R125). -/
def byteAt3 (p : Word32) : Byte := p.extractLsb' 0 8

/-- The cable number of a packet, P[31:28] (R103). -/
def pktCable (p : Word32) : Nibble := p.extractLsb' 28 4

/-- The CIN of a packet, P[27:24] (R103). -/
def pktCin (p : Word32) : Nibble := p.extractLsb' 24 4

/-! ## Decoding -/

/-- The row of the packet table a packet falls in (R109). For CIN 0x4 to 0x7 the row with the byte-1 condition
wins where it fits. Padding bytes are dropped (40_codec.md R141). -/
def decodePacket (p : Word32) : Instr :=
  let c := pktCable p
  let b1 := byteAt1 p
  let b2 := byteAt2 p
  let b3 := byteAt3 p
  match (pktCin p).toNat with
  | 0x0 => .pktReserved0 c
  | 0x1 => .pktReserved1 c
  | 0x2 => .pktSyscom2 c b1 b2
  | 0x3 => .pktSyscom3 c b1 b2 b3
  | 0x4 => if b1 = 0xF0 then .pktSxStart c b2 b3 else .pktSxCont c b1 b2 b3
  | 0x5 => if b1 = 0xF7 then .pktSxEnd1 c else .pktSingleSys c b1
  | 0x6 => if b1 = 0xF0 then .pktSxComplete2 c b2 else .pktSxEnd2 c b1 b2
  | 0x7 => if b1 = 0xF0 then .pktSxComplete3 c b2 b3 else .pktSxEnd3 c b1 b2 b3
  | 0x8 => .pktNoteOff c b1 b2 b3
  | 0x9 => .pktNoteOn c b1 b2 b3
  | 0xA => .pktPolyPressure c b1 b2 b3
  | 0xB => .pktControlChange c b1 b2 b3
  | 0xC => .pktProgramChange c b1 b2
  | 0xD => .pktChannelPressure c b1 b2
  | 0xE => .pktPitchBend c b1 b2 b3
  | _   => .pktSingleByte c b1

/-- The row of the status-class table a TX_FIXED word falls in (R112); TX_FIXED itself where LEN is not the
length of the first byte's row (log 4). -/
def decodeFixed (c : Nibble) (len : BitVec 2) (b0 b1 b2 : Byte) : Instr :=
  if b0 < 0x80 then .stInvalidData c len b0 b1 b2
  else match (b0.extractLsb' 4 4).toNat with
  | 0x8 => if len = 3 then .stNoteOff c b0 b1 b2 else .txFixed c len b0 b1 b2
  | 0x9 => if len = 3 then .stNoteOn c b0 b1 b2 else .txFixed c len b0 b1 b2
  | 0xA => if len = 3 then .stPolyPressure c b0 b1 b2 else .txFixed c len b0 b1 b2
  | 0xB => if len = 3 then .stControlChange c b0 b1 b2 else .txFixed c len b0 b1 b2
  | 0xC => if len = 2 then .stProgramChange c b0 b1 else .txFixed c len b0 b1 b2
  | 0xD => if len = 2 then .stChannelPressure c b0 b1 else .txFixed c len b0 b1 b2
  | 0xE => if len = 3 then .stPitchBend c b0 b1 b2 else .txFixed c len b0 b1 b2
  | _ =>
    if b0 = 0xF0 then
      if len = 2 then .stSysexComplete2 c b1
      else if len = 3 then .stSysexComplete3 c b1 b2
      else .txFixed c len b0 b1 b2
    else if b0 = 0xF1 then if len = 2 then .stMtcQuarterFrame c b1 else .txFixed c len b0 b1 b2
    else if b0 = 0xF2 then if len = 3 then .stSongPosition c b1 b2 else .txFixed c len b0 b1 b2
    else if b0 = 0xF3 then if len = 2 then .stSongSelect c b1 else .txFixed c len b0 b1 b2
    else if b0 = 0xF6 then if len = 1 then .stTuneRequest c else .txFixed c len b0 b1 b2
    else if b0 = 0xF7 then .stInvalidEox c len b1 b2
    else if b0 < 0xF8 then .stInvalidUndefined c len b0 b1 b2
    else if len = 1 then .stRealtime c b0 else .txFixed c len b0 b1 b2

/-- The instruction of a command word, by OP (R121) with the operands of R122 to R125. Total: every word
decodes (R127). -/
def decodeWord (w : Word64) : Instr :=
  let arg := fieldArg w
  match (fieldOp w).toNat with
  | 0x0 => .reservedOp0
  | 0x1 => .rxFrame arg
  | 0x2 => decodeFixed (fieldCable w) (fieldLen w) (byteAt0 arg) (byteAt1 arg) (byteAt2 arg)
  | 0x3 => .txSysex (fieldCable w) arg
  | 0x4 => .txComplete
  | 0x5 => .read (byteAt3 arg)
  | 0x6 => .reset
  | 0x7 => .reservedOp7
  | 0x8 => .reservedOp8
  | 0x9 => .reservedOp9
  | 0xA => .reservedOpA
  | 0xB => .reservedOpB
  | 0xC => .reservedOpC
  | 0xD => .reservedOpD
  | 0xE => .reservedOpE
  | _   => .reservedOpF

/-- The instruction of a step's input. -/
def decode : CmdInput → Instr
  | .word w  => decodeWord w
  | .frame p => decodePacket p

/-- Why bytes are no instruction. -/
inductive DecodeError where
  /-- Neither the 8 bytes of a command word nor the 4 of a packet (R130). -/
  | badLength (n : Nat)
  deriving DecidableEq, Repr

/-- The bytes of a packet or a command word, the most significant first (20_memory.md R71, R73; for the command
word log 6), as an instruction. -/
def decodeBytes : List Byte → Except DecodeError Instr
  | [a, b, c, d] => .ok (decodePacket (a ++ b ++ c ++ d))
  | [a, b, c, d, e, f, g, h] => .ok (decodeWord (a ++ b ++ c ++ d ++ e ++ f ++ g ++ h))
  | bs => .error (.badLength bs.length)

/-- The bytes in which `nbits` bits of the value `w` stand, the most significant first. -/
def layOut (nbytes w : Nat) : List Byte :=
  match nbytes with
  | 0 => []
  | n + 1 => BitVec.ofNat 8 (w >>> (8 * n)) :: layOut n w

/-- How many bytes an instruction has whose row of the table has `nbits` bits: a packet 4, a command word 8 (R130). -/
def rowBytes (nbits : Nat) : Nat := if nbits ≤ 32 then 4 else 8

/-- The instruction the decoder reads from the value `w` of a table row of `nbits` bits. -/
def decodeTableWord (nbits w : Nat) : Option Instr :=
  match decodeBytes (layOut (rowBytes nbits) w) with
  | .ok i => some i
  | .error _ => none

/-! ## Encoding -/

/-- A command word with its reserved bits 0 (R120, R126). -/
def cmdWord (op cable : Nibble) (len : BitVec 2) (arg : Word32) : Word64 :=
  op ++ cable ++ (0 : BitVec 22) ++ len ++ arg

/-- A packet in P notation (R103). -/
def pktWord (cable cin : Nibble) (b1 b2 b3 : Byte) : Word32 :=
  cable ++ cin ++ b1 ++ b2 ++ b3

/-- A TX_FIXED word: the message bytes at ARG[31:8], ARG[7:0] = 0 (R123). -/
def fixedWord (cable : Nibble) (len : BitVec 2) (b0 b1 b2 : Byte) : Word64 :=
  cmdWord 0x2 cable len (b0 ++ b1 ++ b2 ++ (0 : Byte))

/-- The word or packet of an instruction, with every ignored field 0 (R109, R112, R121 to R125, R131). -/
def encode : Instr → CmdInput
  | .rxFrame p => .word (cmdWord 0x1 0 0 p)
  | .txFixed c len b0 b1 b2 => .word (fixedWord c len b0 b1 b2)
  | .txSysex c n => .word (cmdWord 0x3 c 0 n)
  | .txComplete => .word (cmdWord 0x4 0 0 0)
  | .read idx => .word (cmdWord 0x5 0 0 ((0 : BitVec 24) ++ idx))
  | .reset => .word (cmdWord 0x6 0 0 0)
  | .reservedOp0 => .word (cmdWord 0x0 0 0 0)
  | .reservedOp7 => .word (cmdWord 0x7 0 0 0)
  | .reservedOp8 => .word (cmdWord 0x8 0 0 0)
  | .reservedOp9 => .word (cmdWord 0x9 0 0 0)
  | .reservedOpA => .word (cmdWord 0xA 0 0 0)
  | .reservedOpB => .word (cmdWord 0xB 0 0 0)
  | .reservedOpC => .word (cmdWord 0xC 0 0 0)
  | .reservedOpD => .word (cmdWord 0xD 0 0 0)
  | .reservedOpE => .word (cmdWord 0xE 0 0 0)
  | .reservedOpF => .word (cmdWord 0xF 0 0 0)
  | .stNoteOff c b0 b1 b2 => .word (fixedWord c 3 b0 b1 b2)
  | .stNoteOn c b0 b1 b2 => .word (fixedWord c 3 b0 b1 b2)
  | .stPolyPressure c b0 b1 b2 => .word (fixedWord c 3 b0 b1 b2)
  | .stControlChange c b0 b1 b2 => .word (fixedWord c 3 b0 b1 b2)
  | .stProgramChange c b0 b1 => .word (fixedWord c 2 b0 b1 0)
  | .stChannelPressure c b0 b1 => .word (fixedWord c 2 b0 b1 0)
  | .stPitchBend c b0 b1 b2 => .word (fixedWord c 3 b0 b1 b2)
  | .stSysexComplete2 c b1 => .word (fixedWord c 2 0xF0 b1 0)
  | .stSysexComplete3 c b1 b2 => .word (fixedWord c 3 0xF0 b1 b2)
  | .stMtcQuarterFrame c b1 => .word (fixedWord c 2 0xF1 b1 0)
  | .stSongPosition c b1 b2 => .word (fixedWord c 3 0xF2 b1 b2)
  | .stSongSelect c b1 => .word (fixedWord c 2 0xF3 b1 0)
  | .stTuneRequest c => .word (fixedWord c 1 0xF6 0 0)
  | .stRealtime c b0 => .word (fixedWord c 1 b0 0 0)
  | .stInvalidData c len b0 b1 b2 => .word (fixedWord c len b0 b1 b2)
  | .stInvalidUndefined c len b0 b1 b2 => .word (fixedWord c len b0 b1 b2)
  | .stInvalidEox c len b1 b2 => .word (fixedWord c len 0xF7 b1 b2)
  | .pktReserved0 c => .frame (pktWord c 0x0 0 0 0)
  | .pktReserved1 c => .frame (pktWord c 0x1 0 0 0)
  | .pktSyscom2 c b1 b2 => .frame (pktWord c 0x2 b1 b2 0)
  | .pktSyscom3 c b1 b2 b3 => .frame (pktWord c 0x3 b1 b2 b3)
  | .pktSxStart c b2 b3 => .frame (pktWord c 0x4 0xF0 b2 b3)
  | .pktSxCont c b1 b2 b3 => .frame (pktWord c 0x4 b1 b2 b3)
  | .pktSxEnd1 c => .frame (pktWord c 0x5 0xF7 0 0)
  | .pktSingleSys c b1 => .frame (pktWord c 0x5 b1 0 0)
  | .pktSxComplete2 c b2 => .frame (pktWord c 0x6 0xF0 b2 0)
  | .pktSxEnd2 c b1 b2 => .frame (pktWord c 0x6 b1 b2 0)
  | .pktSxComplete3 c b2 b3 => .frame (pktWord c 0x7 0xF0 b2 b3)
  | .pktSxEnd3 c b1 b2 b3 => .frame (pktWord c 0x7 b1 b2 b3)
  | .pktNoteOff c b1 b2 b3 => .frame (pktWord c 0x8 b1 b2 b3)
  | .pktNoteOn c b1 b2 b3 => .frame (pktWord c 0x9 b1 b2 b3)
  | .pktPolyPressure c b1 b2 b3 => .frame (pktWord c 0xA b1 b2 b3)
  | .pktControlChange c b1 b2 b3 => .frame (pktWord c 0xB b1 b2 b3)
  | .pktProgramChange c b1 b2 => .frame (pktWord c 0xC b1 b2 0)
  | .pktChannelPressure c b1 b2 => .frame (pktWord c 0xD b1 b2 0)
  | .pktPitchBend c b1 b2 b3 => .frame (pktWord c 0xE b1 b2 b3)
  | .pktSingleByte c b1 => .frame (pktWord c 0xF b1 0 0)

/-! ## The opcode table as data -/

/-- A row of spec/opcode_table.json: the words `w` of the row are those with `w &&& mask = pattern`. -/
structure OpRow (n : Nat) where
  mnemonic : String
  mask     : BitVec n
  pattern  : BitVec n
  deriving DecidableEq, Repr

/-- The word is one of the row's. -/
def OpRow.fits {n : Nat} (r : OpRow n) (w : BitVec n) : Bool := w &&& r.mask == r.pattern

/-- The rows of the table for TX_FIXED by status class (R112). -/
def statusRows : List (OpRow 64) :=
  [⟨"TX_FIXED.ST_SYSEX_COMPLETE2", 0xF0000003FF000000, 0x20000002F0000000⟩,
   ⟨"TX_FIXED.ST_SYSEX_COMPLETE3", 0xF0000003FF000000, 0x20000003F0000000⟩,
   ⟨"TX_FIXED.ST_MTC_QUARTER_FRAME", 0xF0000003FF000000, 0x20000002F1000000⟩,
   ⟨"TX_FIXED.ST_SONG_POSITION", 0xF0000003FF000000, 0x20000003F2000000⟩,
   ⟨"TX_FIXED.ST_SONG_SELECT", 0xF0000003FF000000, 0x20000002F3000000⟩,
   ⟨"TX_FIXED.ST_TUNE_REQUEST", 0xF0000003FF000000, 0x20000001F6000000⟩,
   ⟨"TX_FIXED.ST_INVALID_EOX", 0xF0000000FF000000, 0x20000000F7000000⟩,
   ⟨"TX_FIXED.ST_REALTIME", 0xF0000003F8000000, 0x20000001F8000000⟩,
   ⟨"TX_FIXED.ST_INVALID_UNDEFINED", 0xF0000000FE000000, 0x20000000F4000000⟩,
   ⟨"TX_FIXED.ST_NOTE_OFF", 0xF0000003F0000000, 0x2000000380000000⟩,
   ⟨"TX_FIXED.ST_NOTE_ON", 0xF0000003F0000000, 0x2000000390000000⟩,
   ⟨"TX_FIXED.ST_POLY_PRESSURE", 0xF0000003F0000000, 0x20000003A0000000⟩,
   ⟨"TX_FIXED.ST_CONTROL_CHANGE", 0xF0000003F0000000, 0x20000003B0000000⟩,
   ⟨"TX_FIXED.ST_PROGRAM_CHANGE", 0xF0000003F0000000, 0x20000002C0000000⟩,
   ⟨"TX_FIXED.ST_CHANNEL_PRESSURE", 0xF0000003F0000000, 0x20000002D0000000⟩,
   ⟨"TX_FIXED.ST_PITCH_BEND", 0xF0000003F0000000, 0x20000003E0000000⟩,
   ⟨"TX_FIXED.ST_INVALID_DATA", 0xF000000080000000, 0x2000000000000000⟩]

/-- The rows of the table for the commands and the reserved OPs (R121). -/
def opRows : List (OpRow 64) :=
  [⟨"RX_FRAME", 0xF000000000000000, 0x1000000000000000⟩,
   ⟨"TX_FIXED", 0xF000000000000000, 0x2000000000000000⟩,
   ⟨"TX_SYSEX", 0xF000000000000000, 0x3000000000000000⟩,
   ⟨"TX_COMPLETE", 0xF000000000000000, 0x4000000000000000⟩,
   ⟨"READ", 0xF000000000000000, 0x5000000000000000⟩,
   ⟨"RESET", 0xF000000000000000, 0x6000000000000000⟩,
   ⟨"RESERVED_OP_0", 0xF000000000000000, 0x0000000000000000⟩,
   ⟨"RESERVED_OP_7", 0xF000000000000000, 0x7000000000000000⟩,
   ⟨"RESERVED_OP_8", 0xF000000000000000, 0x8000000000000000⟩,
   ⟨"RESERVED_OP_9", 0xF000000000000000, 0x9000000000000000⟩,
   ⟨"RESERVED_OP_A", 0xF000000000000000, 0xA000000000000000⟩,
   ⟨"RESERVED_OP_B", 0xF000000000000000, 0xB000000000000000⟩,
   ⟨"RESERVED_OP_C", 0xF000000000000000, 0xC000000000000000⟩,
   ⟨"RESERVED_OP_D", 0xF000000000000000, 0xD000000000000000⟩,
   ⟨"RESERVED_OP_E", 0xF000000000000000, 0xE000000000000000⟩,
   ⟨"RESERVED_OP_F", 0xF000000000000000, 0xF000000000000000⟩]

/-- The 64-bit rows of the table. -/
def cmdRows : List (OpRow 64) := statusRows ++ opRows

/-- The packet rows of the table (R109). -/
def pktRows : List (OpRow 32) :=
  [⟨"PKT_SX_START", 0x0FFF0000, 0x04F00000⟩,
   ⟨"PKT_SX_END1", 0x0FFF0000, 0x05F70000⟩,
   ⟨"PKT_SX_COMPLETE2", 0x0FFF0000, 0x06F00000⟩,
   ⟨"PKT_SX_COMPLETE3", 0x0FFF0000, 0x07F00000⟩,
   ⟨"PKT_RESERVED0", 0x0F000000, 0x00000000⟩,
   ⟨"PKT_RESERVED1", 0x0F000000, 0x01000000⟩,
   ⟨"PKT_SYSCOM2", 0x0F000000, 0x02000000⟩,
   ⟨"PKT_SYSCOM3", 0x0F000000, 0x03000000⟩,
   ⟨"PKT_SX_CONT", 0x0F000000, 0x04000000⟩,
   ⟨"PKT_SINGLE_SYS", 0x0F000000, 0x05000000⟩,
   ⟨"PKT_SX_END2", 0x0F000000, 0x06000000⟩,
   ⟨"PKT_SX_END3", 0x0F000000, 0x07000000⟩,
   ⟨"PKT_NOTE_OFF", 0x0F000000, 0x08000000⟩,
   ⟨"PKT_NOTE_ON", 0x0F000000, 0x09000000⟩,
   ⟨"PKT_POLY_PRESSURE", 0x0F000000, 0x0A000000⟩,
   ⟨"PKT_CONTROL_CHANGE", 0x0F000000, 0x0B000000⟩,
   ⟨"PKT_PROGRAM_CHANGE", 0x0F000000, 0x0C000000⟩,
   ⟨"PKT_CHANNEL_PRESSURE", 0x0F000000, 0x0D000000⟩,
   ⟨"PKT_PITCH_BEND", 0x0F000000, 0x0E000000⟩,
   ⟨"PKT_SINGLE_BYTE", 0x0F000000, 0x0F000000⟩]

/-- The mnemonic of an instruction's row in spec/opcode_table.json. -/
def Instr.mnemonic : Instr → String
  | .rxFrame _ => "RX_FRAME"
  | .txFixed _ _ _ _ _ => "TX_FIXED"
  | .txSysex _ _ => "TX_SYSEX"
  | .txComplete => "TX_COMPLETE"
  | .read _ => "READ"
  | .reset => "RESET"
  | .reservedOp0 => "RESERVED_OP_0"
  | .reservedOp7 => "RESERVED_OP_7"
  | .reservedOp8 => "RESERVED_OP_8"
  | .reservedOp9 => "RESERVED_OP_9"
  | .reservedOpA => "RESERVED_OP_A"
  | .reservedOpB => "RESERVED_OP_B"
  | .reservedOpC => "RESERVED_OP_C"
  | .reservedOpD => "RESERVED_OP_D"
  | .reservedOpE => "RESERVED_OP_E"
  | .reservedOpF => "RESERVED_OP_F"
  | .stNoteOff _ _ _ _ => "TX_FIXED.ST_NOTE_OFF"
  | .stNoteOn _ _ _ _ => "TX_FIXED.ST_NOTE_ON"
  | .stPolyPressure _ _ _ _ => "TX_FIXED.ST_POLY_PRESSURE"
  | .stControlChange _ _ _ _ => "TX_FIXED.ST_CONTROL_CHANGE"
  | .stProgramChange _ _ _ => "TX_FIXED.ST_PROGRAM_CHANGE"
  | .stChannelPressure _ _ _ => "TX_FIXED.ST_CHANNEL_PRESSURE"
  | .stPitchBend _ _ _ _ => "TX_FIXED.ST_PITCH_BEND"
  | .stSysexComplete2 _ _ => "TX_FIXED.ST_SYSEX_COMPLETE2"
  | .stSysexComplete3 _ _ _ => "TX_FIXED.ST_SYSEX_COMPLETE3"
  | .stMtcQuarterFrame _ _ => "TX_FIXED.ST_MTC_QUARTER_FRAME"
  | .stSongPosition _ _ _ => "TX_FIXED.ST_SONG_POSITION"
  | .stSongSelect _ _ => "TX_FIXED.ST_SONG_SELECT"
  | .stTuneRequest _ => "TX_FIXED.ST_TUNE_REQUEST"
  | .stRealtime _ _ => "TX_FIXED.ST_REALTIME"
  | .stInvalidData _ _ _ _ _ => "TX_FIXED.ST_INVALID_DATA"
  | .stInvalidUndefined _ _ _ _ _ => "TX_FIXED.ST_INVALID_UNDEFINED"
  | .stInvalidEox _ _ _ _ => "TX_FIXED.ST_INVALID_EOX"
  | .pktReserved0 _ => "PKT_RESERVED0"
  | .pktReserved1 _ => "PKT_RESERVED1"
  | .pktSyscom2 _ _ _ => "PKT_SYSCOM2"
  | .pktSyscom3 _ _ _ _ => "PKT_SYSCOM3"
  | .pktSxStart _ _ _ => "PKT_SX_START"
  | .pktSxCont _ _ _ _ => "PKT_SX_CONT"
  | .pktSxEnd1 _ => "PKT_SX_END1"
  | .pktSingleSys _ _ => "PKT_SINGLE_SYS"
  | .pktSxComplete2 _ _ => "PKT_SX_COMPLETE2"
  | .pktSxEnd2 _ _ _ => "PKT_SX_END2"
  | .pktSxComplete3 _ _ _ => "PKT_SX_COMPLETE3"
  | .pktSxEnd3 _ _ _ _ => "PKT_SX_END3"
  | .pktNoteOff _ _ _ _ => "PKT_NOTE_OFF"
  | .pktNoteOn _ _ _ _ => "PKT_NOTE_ON"
  | .pktPolyPressure _ _ _ _ => "PKT_POLY_PRESSURE"
  | .pktControlChange _ _ _ _ => "PKT_CONTROL_CHANGE"
  | .pktProgramChange _ _ _ => "PKT_PROGRAM_CHANGE"
  | .pktChannelPressure _ _ _ => "PKT_CHANNEL_PRESSURE"
  | .pktPitchBend _ _ _ _ => "PKT_PITCH_BEND"
  | .pktSingleByte _ _ => "PKT_SINGLE_BYTE"

end Sys2Proof
end

