-- ==== Sys2Proof/Config.lean ====
section
/-! DEFINITION. What an implementation of the block fixes (00_scope.md R12 to R16) and the one free
value of the model. -/

namespace Sys2Proof

/-- The parameters of the block (R12 to R16), fixed for its lifetime (10_state.md R50). Each bounded
parameter is held as its distance from its least legal value, so that no illegal value can be written:
`cableTop` = N_CABLES - 1 (1 to 16 cables), `capTop` = CAP - 1 (EP_MAX = 4 * CAP from 4 to 1024),
`tsTop` = TS_W - 1 (1 to 64 bits). -/
structure Params where
  cableTop : Fin 16
  capTop   : Fin 256
  tsTop    : Fin 64
  /-- TIME_UNIT: the length of one timestamp tick in a unit the environment fixes. No rule reads it. -/
  timeUnit : Nat
  deriving DecidableEq, Repr

/-- N_CABLES, the number of cables served (R12). -/
def Params.nCables (p : Params) : Nat := p.cableTop.val + 1

/-- CAP, the number of packets the transfer buffer holds (R14). -/
def Params.cap (p : Params) : Nat := p.capTop.val + 1

/-- EP_MAX, the size of the transfer buffer in bytes (R13). -/
def Params.epMax (p : Params) : Nat := 4 * p.cap

/-- TS_W, the width of a timestamp in bits (R16). -/
def Params.tsW (p : Params) : Nat := p.tsTop.val + 1

/-- The parameters the test vectors of 95_test_vectors.md default to: N_CABLES = 16, EP_MAX = 64, TS_W = 32.
DESIGN CHOICE (log 1): the spec fixes no value. -/
def Params.default : Params := ⟨15, 15, 31, 1⟩

/-- A byte of host source memory that the host has not written, as the draw `draw` reads it at address `addr`
(93_implementation_defined.md I10: any value). It has no body: nothing can be proved of its value (log 9). -/
opaque Config.freeSrcByte (draw addr : Nat) : Byte

end Sys2Proof
end

