-- ==== Sys2Proof/Machine/State.lean ====
section
/-! DEFINITION. The state of the block (10_state.md), the inputs and outputs of a step (00_scope.md R10,
30_encoding.md R128), and the state after reset (10_state.md R55). Plain data throughout. -/

namespace Sys2Proof.Machine

/-- The values of tx_state (R32). -/
inductive TxState where
  /-- 0: no transfer in flight. -/
  | idle
  /-- 1: the packet in fx_pkt is in flight. -/
  | fixedInflight
  /-- 2: a sysex session is active and a non-final transfer is in flight. -/
  | sxWaitMid
  /-- 3: a sysex session is active and its final transfer is in flight. -/
  | sxWaitLast
  deriving DecidableEq, Repr

/-- The values of rx_state[c] (R43). -/
inductive RxState where
  | idle
  | receiving
  deriving DecidableEq, Repr

/-- The result codes (60_exceptions.md R280). -/
inductive Result where
  | ok
  | invalidMessage
  | sessionBusy
  | transportFailure
  deriving DecidableEq, Repr

/-- A packet as its four bytes in wire order (20_memory.md R71). -/
structure Packet where
  b0 : Byte
  b1 : Byte
  b2 : Byte
  b3 : Byte
  deriving DecidableEq, Repr

/-- An event record (30_encoding.md R128). `elapsed` is a TS_W-bit value in the low bits (log 10). -/
inductive Event where
  | message (cable : Nibble) (bytes : List Byte)
  | sysexStart (cable : Nibble)
  | sysexData (cable : Nibble) (bytes : List Byte)
  | sysexEnd (cable : Nibble) (total : Word32) (elapsed : Word64)
  deriving DecidableEq, Repr

/-- The outputs of a step (30_encoding.md R128). `send` holds the bytes of the transfer in wire order. -/
structure Outputs where
  result : Result
  rdata  : Word32
  events : List Event
  send   : Option (List Byte)
  deriving DecidableEq, Repr

/-- One cable's sysex reassembler: rx_state[c], rx_count[c], rx_start[c] (R43 to R45). `start` is a TS_W-bit
value in the low bits of 64 (log 10). -/
structure RxSession where
  state : RxState
  count : Word32
  start : Word64
  deriving DecidableEq, Repr

/-- The two memories a transfer is sent from (20_memory.md R70). -/
inductive TransferBuf where
  | fxPkt
  | txBuf
  deriving DecidableEq, Repr

/-- A transfer the transport accepted and has not completed: a reference to the packets it may still read
(20_memory.md R80; log 11). -/
structure Transfer where
  buf     : TransferBuf
  packets : Nat
  deriving DecidableEq, Repr

/-- A sparse byte memory: addresses strictly rising. An unlisted address holds no value. -/
abbrev Memory := List Host.Cell

/-- The inputs of a step beside its command (00_scope.md R10): `now` (R17, of which the low TS_W bits count, log 10),
`send_ok` (20_memory.md R80), and the host source memory given with a TX_SYSEX, as the address in `srcMem` of its
payload byte 0 (log 8). -/
structure Pins where
  now    : Word64
  sendOk : Bool
  src    : Nat
  deriving DecidableEq, Repr

/-- One pending step: its command, its other inputs, and what the host wrote to its source memory since the step
before (20_memory.md R87, 70_reset_and_hazards.md R325). -/
structure StepInput where
  cmd        : CmdInput
  pins       : Pins
  hostWrites : List Host.Cell
  deriving DecidableEq, Repr

/-- The state. The first part is the block's, by the names of 10_state.md; the second is the model's own (log 1,
log 2, log 8, log 9, log 11, log 12), since a step takes nothing but a State. -/
structure State where
  -- transmit state (R32 to R42)
  txState      : TxState
  txCable      : Nibble
  txLen        : Word32
  txPos        : Word32
  /-- R38 allows any wider natural number. -/
  txFill       : Nat
  txBuf        : Memory
  txLastResult : Result
  fxPkt        : Packet
  /-- The address of payload byte 0 in `srcMem`, or unbound. -/
  txSrc        : Option Nat
  -- receive state (R43 to R47); the cables from N_CABLES on have no register (log 14)
  rx              : Vector RxSession 16
  rxReservedCount : Word32
  rxDiscardCount  : Word32
  -- the model's own
  params : Params
  queue  : List StepInput
  pins   : Pins
  out    : Option Outputs
  held   : List Transfer
  srcMem : Memory
  draws  : Nat
  deriving DecidableEq, Repr

/-- Why the machine would stop with a fault. The block itself has no condition that stops it (60_exceptions.md R290). -/
inductive Fault where
  /-- Raised by Fill's flush if it sent a byte of tx_buf that nothing has written since reset (93_implementation_defined.md
  I4: a read of an unwritten byte faults). Safe, and never raised: a flush reads only what its own Fill wrote
  (10_state.md R39; log 7). -/
  | txBufUnwritten
  deriving DecidableEq, Repr

/-- Why the machine would give an instruction no meaning. -/
inductive Refusal where
  /-- Raised by an arm of `exec` whose instruction has no meaning yet; no arm is left that raises it. Safe. -/
  | notModelled (mnemonic : String)
  deriving DecidableEq, Repr

/-- The reset value of a cable's reassembler (R43 to R45). -/
def RxSession.reset : RxSession := ⟨.idle, 0, 0⟩

/-- The pins when no command names another value: the defaults of the assembler syntax (30_encoding.md R131; log 2). -/
def Pins.default : Pins := ⟨0, true, 0⟩

/-- The state after power-on of a block with parameters `p` (10_state.md R55, 70_reset_and_hazards.md R320):
every register 0 or IDLE, tx_buf unspecified (no byte listed, log 7), tx_src unbound; no command pending, no
transfer with the transport, nothing written to source memory (log 2, log 8, log 9, log 11, log 12). -/
def State.resetWith (p : Params) : State where
  txState := .idle
  txCable := 0
  txLen := 0
  txPos := 0
  txFill := 0
  txBuf := []
  txLastResult := .ok
  fxPkt := ⟨0, 0, 0, 0⟩
  txSrc := none
  rx := Vector.replicate 16 RxSession.reset
  rxReservedCount := 0
  rxDiscardCount := 0
  params := p
  queue := []
  pins := Pins.default
  out := none
  held := []
  srcMem := []
  draws := 0

/-- The state after power-on, with the parameters of log 1. -/
def State.reset : State := State.resetWith Params.default

end Sys2Proof.Machine
end

