-- ==== Sys2Proof/Machine/Operands.lean ====
section
/-! DEFINITION. The packet codec: the pure functions of 30_encoding.md and 40_codec.md that read and build packets
(40_codec.md R161). -/

namespace Sys2Proof.Machine

/-- The packet a value in P notation stands for (30_encoding.md R103). -/
def Packet.ofWord (p : Word32) : Packet := ⟨byteAt0 p, byteAt1 p, byteAt2 p, byteAt3 p⟩

/-- A packet in P notation (R103): FX_PKT of READ (10_state.md R52). -/
def Packet.toWord (p : Packet) : Word32 := p.b0 ++ p.b1 ++ p.b2 ++ p.b3

/-- The bytes of a packet in wire order (20_memory.md R71). -/
def Packet.bytes (p : Packet) : List Byte := [p.b0, p.b1, p.b2, p.b3]

/-- CinCount(cin), the number of meaningful bytes (R105). -/
def cinCount (cin : Nibble) : Nat :=
  [0, 0, 2, 3, 3, 1, 2, 3, 3, 3, 3, 3, 2, 2, 3, 1].getD cin.toNat 0

/-- The kinds of a received packet (R106). -/
inductive Kind where
  | reserved
  | msg
  | sxStart
  | sxCont
  | sxEnd
  | sxComplete
  deriving DecidableEq, Repr

/-- Kind(cin, b1) (R106). -/
def kind (cin : Nibble) (b1 : Byte) : Kind :=
  if cin = 0x0 ∨ cin = 0x1 then .reserved
  else if cin = 0x4 then (if b1 = 0xF0 then .sxStart else .sxCont)
  else if cin = 0x5 then (if b1 = 0xF7 then .sxEnd else .msg)
  else if cin = 0x6 ∨ cin = 0x7 then (if b1 = 0xF0 then .sxComplete else .sxEnd)
  else .msg

/-- What Decode returns (40_codec.md R140). -/
structure Decoded where
  cable : Nibble
  cin   : Nibble
  n     : Nat
  d     : List Byte
  deriving DecidableEq, Repr

/-- Decode(p) (R140, R141): the bytes past the meaningful count are not read. -/
def Packet.decode (p : Packet) : Decoded :=
  let cin : Nibble := p.b0.extractLsb' 0 4
  let n := cinCount cin
  ⟨p.b0.extractLsb' 4 4, cin, n, [p.b1, p.b2, p.b3].take n⟩

/-- EncodeFixed(len, [b0, b1, b2]): the CIN, or none for FAIL (40_codec.md R142, R143 to R157). -/
def encodeFixed (len : Nat) (b0 b1 b2 : Byte) : Option Nibble :=
  if len = 0 then none
  else if 0x80 ≤ b0 ∧ b0 ≤ 0xEF then
    let hi : Nibble := b0.extractLsb' 4 4
    let need := if hi = 0xC ∨ hi = 0xD then 2 else 3
    if len = need then some hi else none
  else if b0 = 0xF0 then
    if 2 ≤ len ∧ [b0, b1, b2][len - 1]? = some 0xF7 then some (BitVec.ofNat 4 (4 + len)) else none
  else if b0 = 0xF1 ∨ b0 = 0xF3 then (if len = 2 then some 0x2 else none)
  else if b0 = 0xF2 then (if len = 3 then some 0x3 else none)
  else if b0 = 0xF6 then (if len = 1 then some 0x5 else none)
  else if 0xF8 ≤ b0 then (if len = 1 then some 0x5 else none)
  else none

/-- Pack(cable, cin, g): byte 0 is (cable << 4) | cin, then the bytes of `g`, zero-padded (R158, 30_encoding.md R101). -/
def pack (cable cin : Nibble) (g : List Byte) : Packet :=
  ⟨cable ++ cin, g.getD 0 0, g.getD 1 0, g.getD 2 0⟩

/-- EncodeSysex(cable, g, final): CIN 4 + k for the final group of k bytes, else 4 (R159). -/
def encodeSysex (cable : Nibble) (g : List Byte) (final : Bool) : Packet :=
  pack cable (if final then BitVec.ofNat 4 (4 + g.length) else 0x4) g

/-- The low TS_W bits of a timestamp: v mod 2^TS_W (00_scope.md R16, R18). -/
def tsTrunc (p : Params) (v : Word64) : Word64 := BitVec.ofNat 64 (v.toNat % 2 ^ p.tsW)

end Sys2Proof.Machine
end

