-- ==== Sys2Proof/Machine/Ops.lean ====
section
/-! DEFINITION. The named operations over memories and registers, each written once, and the operations
every command ends in. The block takes no exception and returns from none (60_exceptions.md R290, R291):
the one operation in their place is `State.refuse`, which answers a result code and writes no block state. -/

namespace Sys2Proof.Machine

/-- What every meaning answers. -/
abbrev Answer := Host.Outcome State Fault Refusal

/-! ## Memories -/

/-- Addresses strictly rising: the one canonical form of a memory. -/
abbrev Memory.wf (m : Memory) : Prop := m.Pairwise (fun x y => x.1 < y.1)

/-- The byte at an address; none where nothing has been written. -/
def Memory.read : Memory → Nat → Option Byte
  | [], _ => none
  | (a, v) :: m, x => if a = x then some v else Memory.read m x

/-- Store one byte. -/
def Memory.write : Memory → Nat → Byte → Memory
  | [], x, v => [(x, v)]
  | (a, u) :: m, x, v =>
    if x < a then (x, v) :: (a, u) :: m
    else if x = a then (x, v) :: m
    else (a, u) :: Memory.write m x v

/-- Store a list of cells, the first first. -/
def Memory.writeAll (m : Memory) (cells : List Host.Cell) : Memory :=
  cells.foldl (fun m c => m.write c.1 c.2) m

/-- Store a packet at a byte offset, byte 0 at the lowest (20_memory.md R72, R77). -/
def Memory.writePacket (m : Memory) (off : Nat) (p : Packet) : Memory :=
  (((m.write off p.b0).write (off + 1) p.b1).write (off + 2) p.b2).write (off + 3) p.b3

/-- The `n` bytes from `off` on, in increasing order (20_memory.md R72); none if one of them is unwritten. -/
def Memory.readBytes (m : Memory) (off : Nat) : Nat → Option (List Byte)
  | 0 => some []
  | n + 1 =>
    match m.read off, m.readBytes (off + 1) n with
    | some b, some bs => some (b :: bs)
    | _, _ => none

/-! ## Registers -/

/-- The reassembler of cable `c`. -/
def State.rxGet (s : State) (c : Nibble) : RxSession := s.rx[c.toNat]

/-- Write the reassembler of cable `c` and no other (41_receive.md R212). -/
def State.rxSet (s : State) (c : Nibble) (r : RxSession) : State :=
  { s with rx := s.rx.set c.toNat r }

/-- rx_reserved_count + 1 mod 2^32 (10_state.md R46). -/
def State.countReserved (s : State) : State := { s with rxReservedCount := s.rxReservedCount + 1 }

/-- rx_discard_count + 1 mod 2^32 (10_state.md R47). -/
def State.countDiscard (s : State) : State := { s with rxDiscardCount := s.rxDiscardCount + 1 }

/-- Write tx_state (10_state.md R32). -/
def State.setTxState (s : State) (t : TxState) : State := { s with txState := t }

/-- Write tx_last_result (10_state.md R40). -/
def State.setLastResult (s : State) (r : Result) : State := { s with txLastResult := r }

/-- Write fx_pkt (10_state.md R41). -/
def State.setFxPkt (s : State) (p : Packet) : State := { s with fxPkt := p }

/-- The session registers an accepted TX_SYSEX writes (42_transmit.md R224). -/
def State.openSession (s : State) (c : Nibble) (len : Word32) (src : Nat) : State :=
  { s with txCable := c, txLen := len, txPos := 0, txSrc := some src }

/-- The start of a Fill: tx_fill <- 0 (42_transmit.md R227). The draw counter moves on, so that this Fill's free
values are its own (log 9). -/
def State.startFill (s : State) : State := { s with txFill := 0, draws := s.draws + 1 }

/-- Append a packet to tx_buf and advance the cursor by the `k` bytes it took (42_transmit.md R227). -/
def State.putPacket (s : State) (p : Packet) (k : Nat) : State :=
  { s with
    txBuf := s.txBuf.writePacket (4 * s.txFill) p
    txFill := s.txFill + 1
    txPos := s.txPos + BitVec.ofNat 32 k }

/-- The transport accepted a transfer and holds it (20_memory.md R80; log 11). -/
def State.hand (s : State) (buf : TransferBuf) (packets : Nat) : State :=
  { s with held := s.held ++ [⟨buf, packets⟩] }

/-- The transport lets go of the oldest transfer it holds, if any: completions are in send order
(60_exceptions.md R297; log 11). -/
def State.release (s : State) : State := { s with held := s.held.tail }

/-- Every register of 10_state.md to its reset value (43_control.md R262); nothing outside the block changes
(70_reset_and_hazards.md R321). -/
def State.resetBlock (s : State) : State :=
  { State.resetWith s.params with
    queue := s.queue, pins := s.pins, out := s.out, held := s.held, srcMem := s.srcMem, draws := s.draws }

/-- Take the next step's inputs: what the host wrote to its source memory, and the pins (log 2, log 8). -/
def State.accept (s : State) (i : StepInput) (rest : List StepInput) : State :=
  { s with queue := rest, pins := i.pins, srcMem := s.srcMem.writeAll i.hostWrites }

/-! ## Answers -/

/-- Hand out the outputs of the step (30_encoding.md R128, R129; log 12). -/
def State.answer (s : State) (o : Outputs) : State := { s with out := some o }

/-- End with a result code, no rdata, no event and no send. -/
def State.reply (s : State) (r : Result) : Answer := .next (s.answer ⟨r, 0, [], none⟩)

/-- Turn a command away with a result code; no block state is written (60_exceptions.md R281, R282, R289). -/
def State.refuse (s : State) (r : Result) : Answer := s.reply r

/-- End with OK and the events of the step in order (30_encoding.md R128; 41_receive.md R189). -/
def State.emit (s : State) (es : List Event) : Answer := .next (s.answer ⟨.ok, 0, es, none⟩)

/-- End with a result code after a Send of `bytes` (20_memory.md R80). -/
def State.sent (s : State) (r : Result) (bytes : List Byte) : Answer :=
  .next (s.answer ⟨r, 0, [], some bytes⟩)

end Sys2Proof.Machine
end

