-- ==== Sys2Proof/Machine/Flags.lean ====
section
/-! DEFINITION. The derived flags (10_state.md R33, R34) and the register map of READ (R52 to R54). The numbers
of the names that are handed out stand here too. The block has no condition codes (R48). -/

namespace Sys2Proof.Machine

/-- busy: tx_state is 2 or 3 (R33). -/
def State.busy (s : State) : Bool := s.txState == .sxWaitMid || s.txState == .sxWaitLast

/-- tx_occupied: tx_state is not 0 (R34). -/
def State.txOccupied (s : State) : Bool := s.txState != .idle

/-- The encoding of tx_state (R32). -/
def TxState.code : TxState → BitVec 2
  | .idle => 0
  | .fixedInflight => 1
  | .sxWaitMid => 2
  | .sxWaitLast => 3

/-- The encoding of rx_state[c] (R43). -/
def RxState.code : RxState → BitVec 1
  | .idle => 0
  | .receiving => 1

/-- The result codes (60_exceptions.md R280). -/
def Result.code : Result → BitVec 2
  | .ok => 0
  | .invalidMessage => 1
  | .sessionBusy => 2
  | .transportFailure => 3

/-- The kind number of an event record (30_encoding.md R128). -/
def Event.code : Event → BitVec 2
  | .message _ _ => 0
  | .sysexStart _ => 1
  | .sysexData _ _ => 2
  | .sysexEnd _ _ _ => 3

/-- TX_STATUS (R53): CABLE [11:8], LAST_RESULT [5:4], BUSY [2], STATE [1:0], other bits 0. -/
def State.txStatus (s : State) : Word32 :=
  (0 : BitVec 20) ++ s.txCable ++ (0 : BitVec 2) ++ s.txLastResult.code ++ (0 : BitVec 1)
    ++ BitVec.ofBool s.busy ++ s.txState.code

/-- CONFIG (R54): TS_W [31:24], EP_MAX [23:8], N_CABLES [7:0]. -/
def configReg (p : Params) : Word32 :=
  BitVec.ofNat 8 p.tsW ++ BitVec.ofNat 16 p.epMax ++ BitVec.ofNat 8 p.nCables

/-- The cable exists: c < N_CABLES (00_scope.md R12). -/
def State.cableOk (s : State) (c : Nibble) : Bool := c.toNat < s.params.nCables

/-- The bit of RX_STATE that cable `c` has: rx_state[c], 0 for a cable the block has not (R52). -/
def State.rxStateBit (s : State) (c : Nibble) : BitVec 1 :=
  if s.cableOk c then (s.rxGet c).state.code else 0

/-- RX_STATE (R52): bit c is rx_state[c] for c < N_CABLES, other bits 0. -/
def State.rxStateWord (s : State) : Word32 :=
  (0 : BitVec 16)
    ++ s.rxStateBit 15 ++ s.rxStateBit 14 ++ s.rxStateBit 13 ++ s.rxStateBit 12
    ++ s.rxStateBit 11 ++ s.rxStateBit 10 ++ s.rxStateBit 9 ++ s.rxStateBit 8
    ++ s.rxStateBit 7 ++ s.rxStateBit 6 ++ s.rxStateBit 5 ++ s.rxStateBit 4
    ++ s.rxStateBit 3 ++ s.rxStateBit 2 ++ s.rxStateBit 1 ++ s.rxStateBit 0

/-- RX_COUNT[c]: rx_count[c], or 0 for a cable the block has not (R52). -/
def State.rxCountReg (s : State) (c : Nibble) : Word32 :=
  if s.cableOk c then (s.rxGet c).count else 0

/-- RX_START[c]: rx_start[c] mod 2^32, or 0 for a cable the block has not (R52). -/
def State.rxStartReg (s : State) (c : Nibble) : Word32 :=
  if s.cableOk c then (s.rxGet c).start.setWidth 32 else 0

/-- RegValue(idx) (R52): the value column of the register map; 0 for every other index. -/
def State.regValue (s : State) (idx : Byte) : Word32 :=
  match (idx.extractLsb' 4 4 : Nibble).toNat, (idx.extractLsb' 0 4 : Nibble).toNat with
  | 0, 0 => s.txStatus
  | 0, 1 => s.txLen
  | 0, 2 => s.txPos
  | 0, 3 => BitVec.ofNat 32 s.txFill
  | 0, 4 => s.rxReservedCount
  | 0, 5 => s.rxDiscardCount
  | 0, 6 => s.rxStateWord
  | 0, 7 => configReg s.params
  | 0, 8 => s.fxPkt.toWord
  | 1, _ => s.rxCountReg (idx.extractLsb' 0 4)
  | 2, _ => s.rxStartReg (idx.extractLsb' 0 4)
  | _, _ => 0

end Sys2Proof.Machine
end

