-- ==== Sys2Proof/Machine/Control.lean ====
section
/-! DEFINITION. READ, RESET and the reserved commands (43_control.md). -/

namespace Sys2Proof.Machine

/-- READ (R260): rdata is the register's value; no state is written. -/
def execRead (idx : Byte) (s : State) : Answer := .next (s.answer ⟨.ok, s.regValue idx, [], none⟩)

/-- RESET (R262). -/
def execReset (s : State) : Answer := s.resetBlock.reply .ok

/-- RESERVED_OP_0 (R263): InvalidMessage, no state change. -/
def execReservedOp0 (s : State) : Answer := s.refuse .invalidMessage

/-- RESERVED_OP_7 (R263): InvalidMessage, no state change. -/
def execReservedOp7 (s : State) : Answer := s.refuse .invalidMessage

/-- RESERVED_OP_8 (R263): InvalidMessage, no state change. -/
def execReservedOp8 (s : State) : Answer := s.refuse .invalidMessage

/-- RESERVED_OP_9 (R263): InvalidMessage, no state change. -/
def execReservedOp9 (s : State) : Answer := s.refuse .invalidMessage

/-- RESERVED_OP_A (R263): InvalidMessage, no state change. -/
def execReservedOpA (s : State) : Answer := s.refuse .invalidMessage

/-- RESERVED_OP_B (R263): InvalidMessage, no state change. -/
def execReservedOpB (s : State) : Answer := s.refuse .invalidMessage

/-- RESERVED_OP_C (R263): InvalidMessage, no state change. -/
def execReservedOpC (s : State) : Answer := s.refuse .invalidMessage

/-- RESERVED_OP_D (R263): InvalidMessage, no state change. -/
def execReservedOpD (s : State) : Answer := s.refuse .invalidMessage

/-- RESERVED_OP_E (R263): InvalidMessage, no state change. -/
def execReservedOpE (s : State) : Answer := s.refuse .invalidMessage

/-- RESERVED_OP_F (R263): InvalidMessage, no state change. -/
def execReservedOpF (s : State) : Answer := s.refuse .invalidMessage

end Sys2Proof.Machine
end

