-- ==== Sys2Proof/Machine/Receive.lean ====
section
/-! DEFINITION. The receive path (41_receive.md): RX_FRAME with its demultiplexer and reassembler, and one
meaning per row of the packet table. -/

namespace Sys2Proof.Machine

/-! ## The transitions -/

/-- A reserved packet is dropped and counted (R181). -/
def rxReserved (s : State) : Answer := s.countReserved.emit []

/-- A packet on a cable the block has not, or an orphan, is dropped and counted (R182, R186, R187). -/
def rxDiscard (s : State) : Answer := s.countDiscard.emit []

/-- MSG: the bytes are delivered and no state changes (R183). -/
def rxMessage (c : Nibble) (d : List Byte) (s : State) : Answer := s.emit [.message c d]

/-- The first of the two writes of rx_count in SxStart and SxComplete: the session opens with `count` = 1 for the
0xF0 marker and `start` = now (R185, R188). -/
def RxSession.opened (p : Params) (now : Word64) : RxSession := ⟨.receiving, 1, tsTrunc p now⟩

/-- SxStart (R185): the session opens, in either state, then the bytes after 0xF0 are counted and delivered. -/
def rxSxStart (c : Nibble) (d : List Byte) (s : State) : Answer :=
  let r := RxSession.opened s.params s.pins.now
  let s := s.rxSet c { r with count := r.count + BitVec.ofNat 32 (d.length - 1) }
  s.emit [.sysexStart c, .sysexData c (d.drop 1)]

/-- SxCont (R186). -/
def rxSxCont (c : Nibble) (d : List Byte) (s : State) : Answer :=
  let r := s.rxGet c
  match r.state with
  | .idle => rxDiscard s
  | .receiving =>
    (s.rxSet c { r with count := r.count + BitVec.ofNat 32 d.length }).emit [.sysexData c d]

/-- SxEnd (R187): all bytes are counted, all but the last delivered; elapsed = (now - rx_start[c]) mod 2^TS_W. -/
def rxSxEnd (c : Nibble) (d : List Byte) (s : State) : Answer :=
  let r := s.rxGet c
  match r.state with
  | .idle => rxDiscard s
  | .receiving =>
    let total := r.count + BitVec.ofNat 32 d.length
    let elapsed := tsTrunc s.params (s.pins.now - r.start)
    (s.rxSet c { r with state := .idle, count := total }).emit
      ((if 1 < d.length then [.sysexData c d.dropLast] else []) ++ [.sysexEnd c total elapsed])

/-- SxComplete (R188): a whole sysex in one packet, in either state. -/
def rxSxComplete (c : Nibble) (d : List Byte) (s : State) : Answer :=
  let r := RxSession.opened s.params s.pins.now
  let total := BitVec.ofNat 32 d.length
  (s.rxSet c { r with state := .idle, count := total }).emit
    (.sysexStart c :: (if d.length = 3 then [.sysexData c [d.getD 1 0]] else []) ++ [.sysexEnd c total 0])

/-- The demultiplexer: a packet whose CIN is not reserved goes to its cable, or is dropped where the block has no
such cable (R180, R182). -/
def State.onCable (s : State) (c : Nibble) (f : State → Answer) : Answer :=
  if s.cableOk c then f s else rxDiscard s

/-! ## RX_FRAME -/

/-- RX_FRAME (R180). -/
def execRxFrame (p : Word32) (s : State) : Answer :=
  let q := (Packet.ofWord p).decode
  if q.n = 0 then rxReserved s
  else s.onCable q.cable fun s =>
    match kind q.cin (q.d.getD 0 0) with
    | .reserved   => rxReserved s
    | .msg        => rxMessage q.cable q.d s
    | .sxStart    => rxSxStart q.cable q.d s
    | .sxCont     => rxSxCont q.cable q.d s
    | .sxEnd      => rxSxEnd q.cable q.d s
    | .sxComplete => rxSxComplete q.cable q.d s

/-! ## One meaning per row of the packet table -/

/-- PKT_RESERVED0 (R190): CIN 0x0; the cable is not checked. -/
def execPktReserved0 (_c : Nibble) (s : State) : Answer := rxReserved s

/-- PKT_RESERVED1 (R191): CIN 0x1; the cable is not checked. -/
def execPktReserved1 (_c : Nibble) (s : State) : Answer := rxReserved s

/-- PKT_SYSCOM2 (R192): CIN 0x2, 2 bytes, delivered as a message. -/
def execPktSyscom2 (c : Nibble) (b1 b2 : Byte) (s : State) : Answer := s.onCable c (rxMessage c [b1, b2])

/-- PKT_SYSCOM3 (R193): CIN 0x3, 3 bytes, delivered as a message. -/
def execPktSyscom3 (c : Nibble) (b1 b2 b3 : Byte) (s : State) : Answer := s.onCable c (rxMessage c [b1, b2, b3])

/-- PKT_SINGLE_SYS (R197): CIN 0x5, 1 byte, delivered as a message. -/
def execPktSingleSys (c : Nibble) (b1 : Byte) (s : State) : Answer := s.onCable c (rxMessage c [b1])

/-- PKT_NOTE_OFF (R202): CIN 0x8, 3 bytes, delivered as a message. -/
def execPktNoteOff (c : Nibble) (b1 b2 b3 : Byte) (s : State) : Answer := s.onCable c (rxMessage c [b1, b2, b3])

/-- PKT_NOTE_ON (R203): CIN 0x9, 3 bytes, delivered as a message. -/
def execPktNoteOn (c : Nibble) (b1 b2 b3 : Byte) (s : State) : Answer := s.onCable c (rxMessage c [b1, b2, b3])

/-- PKT_POLY_PRESSURE (R204): CIN 0xA, 3 bytes, delivered as a message. -/
def execPktPolyPressure (c : Nibble) (b1 b2 b3 : Byte) (s : State) : Answer := s.onCable c (rxMessage c [b1, b2, b3])

/-- PKT_CONTROL_CHANGE (R205): CIN 0xB, 3 bytes, delivered as a message. -/
def execPktControlChange (c : Nibble) (b1 b2 b3 : Byte) (s : State) : Answer := s.onCable c (rxMessage c [b1, b2, b3])

/-- PKT_PROGRAM_CHANGE (R206): CIN 0xC, 2 bytes, delivered as a message. -/
def execPktProgramChange (c : Nibble) (b1 b2 : Byte) (s : State) : Answer := s.onCable c (rxMessage c [b1, b2])

/-- PKT_CHANNEL_PRESSURE (R207): CIN 0xD, 2 bytes, delivered as a message. -/
def execPktChannelPressure (c : Nibble) (b1 b2 : Byte) (s : State) : Answer := s.onCable c (rxMessage c [b1, b2])

/-- PKT_PITCH_BEND (R208): CIN 0xE, 3 bytes, delivered as a message. -/
def execPktPitchBend (c : Nibble) (b1 b2 b3 : Byte) (s : State) : Answer := s.onCable c (rxMessage c [b1, b2, b3])

/-- PKT_SINGLE_BYTE (R209): CIN 0xF, 1 byte, delivered as a message. -/
def execPktSingleByte (c : Nibble) (b1 : Byte) (s : State) : Answer := s.onCable c (rxMessage c [b1])

/-- PKT_SX_START (R194): CIN 0x4, byte 1 = 0xF0. -/
def execPktSxStart (c : Nibble) (b2 b3 : Byte) (s : State) : Answer := s.onCable c (rxSxStart c [0xF0, b2, b3])

/-- PKT_SX_CONT (R195): CIN 0x4, byte 1 not 0xF0. -/
def execPktSxCont (c : Nibble) (b1 b2 b3 : Byte) (s : State) : Answer := s.onCable c (rxSxCont c [b1, b2, b3])

/-- PKT_SX_END1 (R196): CIN 0x5, byte 1 = 0xF7. -/
def execPktSxEnd1 (c : Nibble) (s : State) : Answer := s.onCable c (rxSxEnd c [0xF7])

/-- PKT_SX_COMPLETE2 (R198): CIN 0x6, byte 1 = 0xF0. -/
def execPktSxComplete2 (c : Nibble) (b2 : Byte) (s : State) : Answer := s.onCable c (rxSxComplete c [0xF0, b2])

/-- PKT_SX_END2 (R199): CIN 0x6, byte 1 not 0xF0. -/
def execPktSxEnd2 (c : Nibble) (b1 b2 : Byte) (s : State) : Answer := s.onCable c (rxSxEnd c [b1, b2])

/-- PKT_SX_COMPLETE3 (R200): CIN 0x7, byte 1 = 0xF0. -/
def execPktSxComplete3 (c : Nibble) (b2 b3 : Byte) (s : State) : Answer := s.onCable c (rxSxComplete c [0xF0, b2, b3])

/-- PKT_SX_END3 (R201): CIN 0x7, byte 1 not 0xF0. -/
def execPktSxEnd3 (c : Nibble) (b1 b2 b3 : Byte) (s : State) : Answer := s.onCable c (rxSxEnd c [b1, b2, b3])

end Sys2Proof.Machine
end

