-- ==== Sys2Proof/Machine/TransmitFixed.lean ====
section
/-! DEFINITION. TX_FIXED (42_transmit.md R221) and its meaning by status class (40_codec.md R144 to R157). -/

namespace Sys2Proof.Machine

/-- A fixed message ready to pack: its CIN and its bytes. -/
structure FixedMessage where
  cin   : Nibble
  bytes : List Byte
  deriving DecidableEq, Repr

/-- Pack a message into fx_pkt and send it (R221, after the checks). -/
def State.sendFixed (s : State) (c : Nibble) (m : FixedMessage) : Answer :=
  let s := s.setFxPkt (pack c m.cin m.bytes)
  if s.pins.sendOk then
    ((s.setTxState .fixedInflight).hand .fxPkt 1).sent .ok s.fxPkt.bytes
  else
    s.sent .transportFailure s.fxPkt.bytes

/-- TX_FIXED of a message, `none` where EncodeFixed fails (R221): the cable, the message and tx_state are checked
in that order (60_exceptions.md R287). -/
def State.sendMessage (s : State) (c : Nibble) (m : Option FixedMessage) : Answer :=
  if !s.cableOk c then s.refuse .invalidMessage
  else match m with
    | none => s.refuse .invalidMessage
    | some m => if s.txOccupied then s.refuse .sessionBusy else s.sendFixed c m

/-- The message of `len` bytes that EncodeFixed makes of `[b0, b1, b2]` (R221, 40_codec.md R142). -/
def fixedMessage (len : Nat) (b0 b1 b2 : Byte) : Option FixedMessage :=
  (encodeFixed len b0 b1 b2).map fun cin => ⟨cin, [b0, b1, b2].take len⟩

/-- TX_FIXED (R221). -/
def execTxFixed (c : Nibble) (len : BitVec 2) (b0 b1 b2 : Byte) (s : State) : Answer :=
  s.sendMessage c (fixedMessage len.toNat b0 b1 b2)

/-- TX_FIXED.ST_NOTE_OFF (R144): 3 bytes in CIN 0x8. -/
def execStNoteOff (c : Nibble) (b0 b1 b2 : Byte) (s : State) : Answer := s.sendMessage c (some ⟨0x8, [b0, b1, b2]⟩)

/-- TX_FIXED.ST_NOTE_ON (R145): 3 bytes in CIN 0x9. -/
def execStNoteOn (c : Nibble) (b0 b1 b2 : Byte) (s : State) : Answer := s.sendMessage c (some ⟨0x9, [b0, b1, b2]⟩)

/-- TX_FIXED.ST_POLY_PRESSURE (R146): 3 bytes in CIN 0xA. -/
def execStPolyPressure (c : Nibble) (b0 b1 b2 : Byte) (s : State) : Answer := s.sendMessage c (some ⟨0xA, [b0, b1, b2]⟩)

/-- TX_FIXED.ST_CONTROL_CHANGE (R147): 3 bytes in CIN 0xB. -/
def execStControlChange (c : Nibble) (b0 b1 b2 : Byte) (s : State) : Answer := s.sendMessage c (some ⟨0xB, [b0, b1, b2]⟩)

/-- TX_FIXED.ST_PITCH_BEND (R150): 3 bytes in CIN 0xE. -/
def execStPitchBend (c : Nibble) (b0 b1 b2 : Byte) (s : State) : Answer := s.sendMessage c (some ⟨0xE, [b0, b1, b2]⟩)

/-- TX_FIXED.ST_PROGRAM_CHANGE (R148): 2 bytes in CIN 0xC. -/
def execStProgramChange (c : Nibble) (b0 b1 : Byte) (s : State) : Answer := s.sendMessage c (some ⟨0xC, [b0, b1]⟩)

/-- TX_FIXED.ST_CHANNEL_PRESSURE (R149): 2 bytes in CIN 0xD. -/
def execStChannelPressure (c : Nibble) (b0 b1 : Byte) (s : State) : Answer := s.sendMessage c (some ⟨0xD, [b0, b1]⟩)

/-- TX_FIXED.ST_SYSEX_COMPLETE2 (R151): 0xF0 and the last byte, which must be 0xF7, in CIN 0x6. -/
def execStSysexComplete2 (c : Nibble) (b1 : Byte) (s : State) : Answer :=
  s.sendMessage c (if b1 = 0xF7 then some ⟨0x6, [0xF0, b1]⟩ else none)

/-- TX_FIXED.ST_SYSEX_COMPLETE3 (R151): 0xF0, a byte, and the last byte, which must be 0xF7, in CIN 0x7. -/
def execStSysexComplete3 (c : Nibble) (b1 b2 : Byte) (s : State) : Answer :=
  s.sendMessage c (if b2 = 0xF7 then some ⟨0x7, [0xF0, b1, b2]⟩ else none)

/-- TX_FIXED.ST_MTC_QUARTER_FRAME (R152): 2 bytes in CIN 0x2. -/
def execStMtcQuarterFrame (c : Nibble) (b1 : Byte) (s : State) : Answer := s.sendMessage c (some ⟨0x2, [0xF1, b1]⟩)

/-- TX_FIXED.ST_SONG_POSITION (R153): 3 bytes in CIN 0x3. -/
def execStSongPosition (c : Nibble) (b1 b2 : Byte) (s : State) : Answer :=
  s.sendMessage c (some ⟨0x3, [0xF2, b1, b2]⟩)

/-- TX_FIXED.ST_SONG_SELECT (R154): 2 bytes in CIN 0x2. -/
def execStSongSelect (c : Nibble) (b1 : Byte) (s : State) : Answer := s.sendMessage c (some ⟨0x2, [0xF3, b1]⟩)

/-- TX_FIXED.ST_TUNE_REQUEST (R155): 1 byte in CIN 0x5. -/
def execStTuneRequest (c : Nibble) (s : State) : Answer := s.sendMessage c (some ⟨0x5, [0xF6]⟩)

/-- TX_FIXED.ST_REALTIME (R156): 1 byte in CIN 0x5. -/
def execStRealtime (c : Nibble) (b0 : Byte) (s : State) : Answer := s.sendMessage c (some ⟨0x5, [b0]⟩)

/-- TX_FIXED.ST_INVALID_DATA (R157): a data byte starts no message; InvalidMessage for every LEN and cable. -/
def execStInvalidData (_c : Nibble) (_len : BitVec 2) (_b0 _b1 _b2 : Byte) (s : State) : Answer := s.refuse .invalidMessage

/-- TX_FIXED.ST_INVALID_UNDEFINED (R157): 0xF4 and 0xF5 start no message. -/
def execStInvalidUndefined (_c : Nibble) (_len : BitVec 2) (_b0 _b1 _b2 : Byte) (s : State) : Answer :=
  s.refuse .invalidMessage

/-- TX_FIXED.ST_INVALID_EOX (R157): 0xF7 starts no message. -/
def execStInvalidEox (_c : Nibble) (_len : BitVec 2) (_b1 _b2 : Byte) (s : State) : Answer := s.refuse .invalidMessage

end Sys2Proof.Machine
end

