-- ==== Sys2Proof/Machine/TransmitSysex.lean ====
section
/-! DEFINITION. The sysex chunker (42_transmit.md): Fill, its flush, TX_SYSEX and TX_COMPLETE. -/

namespace Sys2Proof.Machine

/-- SrcRead(i) (20_memory.md R76): the byte the host's bound source memory holds at payload index `i`; any value where
the host has written none (93_implementation_defined.md I10; log 9), and where the source is unbound, which no Fill
of a run meets (10_state.md R42). -/
def State.srcRead (s : State) (i : Nat) : Byte :=
  let a := s.txSrc.getD 0 + i
  match s.txSrc, s.srcMem.read a with
  | some _, some b => b
  | _, _ => Config.freeSrcByte s.draws a

/-- FramedByte(i) (R226): 0xF0, the payload, 0xF7. -/
def State.framedByte (s : State) (i : Nat) : Byte :=
  if i = 0 then 0xF0
  else if i = s.txLen.toNat - 1 then 0xF7
  else s.srcRead (i - 1)

/-- k of R227: the bytes of the group at the cursor. -/
def State.groupLen (s : State) : Nat := min 3 (s.txLen.toNat - s.txPos.toNat)

/-- The group at the cursor (R227). -/
def State.group (s : State) : List Byte :=
  (List.range s.groupLen).map fun j => s.framedByte (s.txPos.toNat + j)

/-- The group at the cursor ends the framed stream (R227). -/
def State.groupFinal (s : State) : Bool := s.txPos.toNat + s.groupLen == s.txLen.toNat

/-- One turn of Fill's loop: pack the group at the cursor (R227). -/
def State.packGroup (s : State) : State :=
  s.putPacket (encodeSysex s.txCable s.group s.groupFinal) s.groupLen

/-- Fill's loop (R227) with room for `n` more packets: it ends at the final group or when the buffer is full.
The Bool says whether the last group packed was final. -/
def fillLoop : Nat → State → State × Bool
  | 0, s => (s, false)
  | n + 1, s => if s.groupFinal then (s.packGroup, true) else fillLoop n s.packGroup

/-- The flush (R228): send tx_buf[0 .. 4*tx_fill - 1] and set the state from the transport's answer. -/
def State.flush (s : State) (final : Bool) : Answer :=
  match s.txBuf.readBytes 0 (4 * s.txFill) with
  | none => .fault .txBufUnwritten
  | some bytes =>
    if s.pins.sendOk then
      ((s.setTxState (if final then .sxWaitLast else .sxWaitMid)).hand .txBuf s.txFill).sent .ok bytes
    else
      ((s.setTxState .idle).setLastResult .transportFailure).sent .transportFailure bytes

/-- Fill() (R227, R228). -/
def State.fill (s : State) : Answer :=
  let q := fillLoop s.params.cap s.startFill
  q.1.flush q.2

/-- TX_SYSEX (R224): the operands, then tx_state are checked, then the session opens and its first transfer is
packed and sent. -/
def execTxSysex (c : Nibble) (n : Word32) (s : State) : Answer :=
  if !s.cableOk c || decide (2 ^ 32 - 3 < n.toNat) then s.refuse .invalidMessage
  else if s.txOccupied then s.refuse .sessionBusy
  else (s.openSession c (n + 2) s.pins.src).fill

/-- TX_COMPLETE (R232): spurious from IDLE (R233), the end of a fixed transfer or of a session, or the resumption
of packing. The transport lets go of the transfer (log 11). -/
def execTxComplete (s : State) : Answer :=
  let s := s.release
  match s.txState with
  | .idle          => s.reply .ok
  | .fixedInflight => (s.setTxState .idle).reply .ok
  | .sxWaitLast    => ((s.setTxState .idle).setLastResult .ok).reply .ok
  | .sxWaitMid     => s.fill

end Sys2Proof.Machine
end

