-- ==== Sys2Proof/Machine/Dispatch.lean ====
section
/-! DEFINITION. One arm per instruction. -/

namespace Sys2Proof.Machine

def exec (i : Instr) (s : State) : Host.Outcome State Fault Refusal :=
  match i with
  | .rxFrame p => Sys2Proof.Machine.execRxFrame p s
  | .txFixed c len b0 b1 b2 => Sys2Proof.Machine.execTxFixed c len b0 b1 b2 s
  | .txSysex c n => Sys2Proof.Machine.execTxSysex c n s
  | .txComplete => Sys2Proof.Machine.execTxComplete s
  | .read idx => Sys2Proof.Machine.execRead idx s
  | .reset => Sys2Proof.Machine.execReset s
  | .reservedOp0 => Sys2Proof.Machine.execReservedOp0 s
  | .reservedOp7 => Sys2Proof.Machine.execReservedOp7 s
  | .reservedOp8 => Sys2Proof.Machine.execReservedOp8 s
  | .reservedOp9 => Sys2Proof.Machine.execReservedOp9 s
  | .reservedOpA => Sys2Proof.Machine.execReservedOpA s
  | .reservedOpB => Sys2Proof.Machine.execReservedOpB s
  | .reservedOpC => Sys2Proof.Machine.execReservedOpC s
  | .reservedOpD => Sys2Proof.Machine.execReservedOpD s
  | .reservedOpE => Sys2Proof.Machine.execReservedOpE s
  | .reservedOpF => Sys2Proof.Machine.execReservedOpF s
  | .stNoteOff c b0 b1 b2 => Sys2Proof.Machine.execStNoteOff c b0 b1 b2 s
  | .stNoteOn c b0 b1 b2 => Sys2Proof.Machine.execStNoteOn c b0 b1 b2 s
  | .stPolyPressure c b0 b1 b2 => Sys2Proof.Machine.execStPolyPressure c b0 b1 b2 s
  | .stControlChange c b0 b1 b2 => Sys2Proof.Machine.execStControlChange c b0 b1 b2 s
  | .stProgramChange c b0 b1 => Sys2Proof.Machine.execStProgramChange c b0 b1 s
  | .stChannelPressure c b0 b1 => Sys2Proof.Machine.execStChannelPressure c b0 b1 s
  | .stPitchBend c b0 b1 b2 => Sys2Proof.Machine.execStPitchBend c b0 b1 b2 s
  | .stSysexComplete2 c b1 => Sys2Proof.Machine.execStSysexComplete2 c b1 s
  | .stSysexComplete3 c b1 b2 => Sys2Proof.Machine.execStSysexComplete3 c b1 b2 s
  | .stMtcQuarterFrame c b1 => Sys2Proof.Machine.execStMtcQuarterFrame c b1 s
  | .stSongPosition c b1 b2 => Sys2Proof.Machine.execStSongPosition c b1 b2 s
  | .stSongSelect c b1 => Sys2Proof.Machine.execStSongSelect c b1 s
  | .stTuneRequest c => Sys2Proof.Machine.execStTuneRequest c s
  | .stRealtime c b0 => Sys2Proof.Machine.execStRealtime c b0 s
  | .stInvalidData c len b0 b1 b2 => Sys2Proof.Machine.execStInvalidData c len b0 b1 b2 s
  | .stInvalidUndefined c len b0 b1 b2 => Sys2Proof.Machine.execStInvalidUndefined c len b0 b1 b2 s
  | .stInvalidEox c len b1 b2 => Sys2Proof.Machine.execStInvalidEox c len b1 b2 s
  | .pktReserved0 c => Sys2Proof.Machine.execPktReserved0 c s
  | .pktReserved1 c => Sys2Proof.Machine.execPktReserved1 c s
  | .pktSyscom2 c b1 b2 => Sys2Proof.Machine.execPktSyscom2 c b1 b2 s
  | .pktSyscom3 c b1 b2 b3 => Sys2Proof.Machine.execPktSyscom3 c b1 b2 b3 s
  | .pktSxStart c b2 b3 => Sys2Proof.Machine.execPktSxStart c b2 b3 s
  | .pktSxCont c b1 b2 b3 => Sys2Proof.Machine.execPktSxCont c b1 b2 b3 s
  | .pktSxEnd1 c => Sys2Proof.Machine.execPktSxEnd1 c s
  | .pktSingleSys c b1 => Sys2Proof.Machine.execPktSingleSys c b1 s
  | .pktSxComplete2 c b2 => Sys2Proof.Machine.execPktSxComplete2 c b2 s
  | .pktSxEnd2 c b1 b2 => Sys2Proof.Machine.execPktSxEnd2 c b1 b2 s
  | .pktSxComplete3 c b2 b3 => Sys2Proof.Machine.execPktSxComplete3 c b2 b3 s
  | .pktSxEnd3 c b1 b2 b3 => Sys2Proof.Machine.execPktSxEnd3 c b1 b2 b3 s
  | .pktNoteOff c b1 b2 b3 => Sys2Proof.Machine.execPktNoteOff c b1 b2 b3 s
  | .pktNoteOn c b1 b2 b3 => Sys2Proof.Machine.execPktNoteOn c b1 b2 b3 s
  | .pktPolyPressure c b1 b2 b3 => Sys2Proof.Machine.execPktPolyPressure c b1 b2 b3 s
  | .pktControlChange c b1 b2 b3 => Sys2Proof.Machine.execPktControlChange c b1 b2 b3 s
  | .pktProgramChange c b1 b2 => Sys2Proof.Machine.execPktProgramChange c b1 b2 s
  | .pktChannelPressure c b1 b2 => Sys2Proof.Machine.execPktChannelPressure c b1 b2 s
  | .pktPitchBend c b1 b2 b3 => Sys2Proof.Machine.execPktPitchBend c b1 b2 b3 s
  | .pktSingleByte c b1 => Sys2Proof.Machine.execPktSingleByte c b1 s

end Sys2Proof.Machine
end

