-- ==== Sys2Proof/Machine/Step.lean ====
section
/-! DEFINITION. One step: the next pending input is taken, its command decoded and executed
(00_scope.md R10, 20_memory.md R84). The block fetches nothing (10_state.md R31, 20_memory.md R87): the host
presents each command. -/

namespace Sys2Proof.Machine

/-- Between commands the block holds its state (60_exceptions.md R302): with no command pending only the outputs of
the step before are gone (log 2, log 12). -/
def State.idle (s : State) : State := { s with out := none }

/-- One command, executed atomically (20_memory.md R84). -/
def step (s : State) : Host.Outcome State Fault Refusal :=
  match s.queue with
  | [] => .next s.idle
  | i :: rest => exec (decode i.cmd) (s.accept i rest)

/-- The state in which the next step takes the row value `w` of `nbits` bits: a command word, or a packet that arrives
as a raw frame, with the present pins and no host write, before whatever was pending (log 2, log 3). -/
def State.withFetchWord (s : State) (nbits w : Nat) : State :=
  let cmd : CmdInput := if nbits ≤ 32 then .frame (BitVec.ofNat 32 w) else .word (BitVec.ofNat 64 w)
  { s with queue := ⟨cmd, s.pins, []⟩ :: s.queue }

end Sys2Proof.Machine
end

