-- ==== Sys2Proof/Safety.lean ====
section
/-! DEFINITION. The terms claims use: the invariant of the block, what a run hands out, the duties of the host and
the transport, and the framed stream of a sysex session. -/

namespace Sys2Proof.Machine

/-! ## The invariant -/

/-- What holds after every step from reset: the transmit invariants of 10_state.md R49, the ranges of the registers
(R35, R37 to R40, R45), and the canonical form of the memories. -/
structure State.Inv (s : State) : Prop where
  /-- The memories are in canonical form. -/
  srcMem_wf : s.srcMem.wf
  txBuf_wf  : s.txBuf.wf
  /-- tx_buf has EP_MAX bytes (R39). -/
  txBuf_inside : ∀ x ∈ s.txBuf, x.1 < s.params.epMax
  /-- 0 <= tx_fill <= CAP (R38), and the bytes of the last Fill are written (R39). -/
  fill_le : s.txFill ≤ s.params.cap
  written : ∀ a, a < 4 * s.txFill → (s.txBuf.read a).isSome
  /-- 0 <= tx_pos <= tx_len (R37). -/
  pos_le : s.txPos.toNat ≤ s.txLen.toNat
  /-- tx_cable is a cable of the block (30_encoding.md R101). -/
  cable_lt : s.txCable.toNat < s.params.nCables
  /-- A session is active only over a bound source (R42) and a stream of at least two bytes, with a packet in
  flight (R49). -/
  session : s.busy = true → 2 ≤ s.txLen.toNat ∧ 1 ≤ s.txFill ∧ s.txSrc.isSome
  /-- In SX_WAIT_MID bytes are left and the buffer was full (R49). -/
  mid : s.txState = .sxWaitMid → s.txPos.toNat < s.txLen.toNat ∧ s.txFill = s.params.cap
  /-- In SX_WAIT_LAST the whole stream is packed (R49). -/
  last : s.txState = .sxWaitLast → s.txPos = s.txLen
  /-- tx_last_result is 0 or 3 (R40). -/
  lastResult : s.txLastResult = .ok ∨ s.txLastResult = .transportFailure
  /-- rx_start[c] has TS_W bits (R45; log 10). -/
  rxStart : ∀ c : Nibble, (s.rxGet c).start.toNat < 2 ^ s.params.tsW
  /-- The cables the block has not have no register: their places stay at the reset value (log 14). -/
  rxAbsent : ∀ c : Nibble, s.params.nCables ≤ c.toNat → s.rxGet c = RxSession.reset

/-! ## What a run hands out -/

/-- The outputs of the first `n` steps that had a command, in order (30_encoding.md R128). -/
def trace : Nat → State → List Outputs
  | 0, _ => []
  | n + 1, s =>
    match step s with
    | .next t => t.out.toList ++ trace n t
    | _ => []

/-- The receive events of a run, in order. -/
def eventsOf (os : List Outputs) : List Event := os.flatMap (·.events)

/-- The bytes a run handed to the transport, in order. -/
def sentBytes (os : List Outputs) : List Byte := os.flatMap (·.send.getD [])

/-! ## The three paths (20_memory.md R89) -/

/-- Which registers a command may touch. -/
inductive Path where
  | receive
  | transmit
  | control
  deriving DecidableEq, Repr

/-- The path of an instruction: RX_FRAME and the packet rows receive; TX_FIXED and its status rows, TX_SYSEX and
TX_COMPLETE transmit; READ, RESET and the reserved commands control. -/
def pathOf : Instr → Path
  | .rxFrame _ => .receive
  | .txFixed _ _ _ _ _ => .transmit
  | .txSysex _ _ => .transmit
  | .txComplete => .transmit
  | .read _ => .control
  | .reset => .control
  | .reservedOp0 => .control
  | .reservedOp7 => .control
  | .reservedOp8 => .control
  | .reservedOp9 => .control
  | .reservedOpA => .control
  | .reservedOpB => .control
  | .reservedOpC => .control
  | .reservedOpD => .control
  | .reservedOpE => .control
  | .reservedOpF => .control
  | .stNoteOff _ _ _ _ => .transmit
  | .stNoteOn _ _ _ _ => .transmit
  | .stPolyPressure _ _ _ _ => .transmit
  | .stControlChange _ _ _ _ => .transmit
  | .stProgramChange _ _ _ => .transmit
  | .stChannelPressure _ _ _ => .transmit
  | .stPitchBend _ _ _ _ => .transmit
  | .stSysexComplete2 _ _ => .transmit
  | .stSysexComplete3 _ _ _ => .transmit
  | .stMtcQuarterFrame _ _ => .transmit
  | .stSongPosition _ _ _ => .transmit
  | .stSongSelect _ _ => .transmit
  | .stTuneRequest _ => .transmit
  | .stRealtime _ _ => .transmit
  | .stInvalidData _ _ _ _ _ => .transmit
  | .stInvalidUndefined _ _ _ _ _ => .transmit
  | .stInvalidEox _ _ _ _ => .transmit
  | .pktReserved0 _ => .receive
  | .pktReserved1 _ => .receive
  | .pktSyscom2 _ _ _ => .receive
  | .pktSyscom3 _ _ _ _ => .receive
  | .pktSxStart _ _ _ => .receive
  | .pktSxCont _ _ _ _ => .receive
  | .pktSxEnd1 _ => .receive
  | .pktSingleSys _ _ => .receive
  | .pktSxComplete2 _ _ => .receive
  | .pktSxEnd2 _ _ _ => .receive
  | .pktSxComplete3 _ _ _ => .receive
  | .pktSxEnd3 _ _ _ _ => .receive
  | .pktNoteOff _ _ _ _ => .receive
  | .pktNoteOn _ _ _ _ => .receive
  | .pktPolyPressure _ _ _ _ => .receive
  | .pktControlChange _ _ _ _ => .receive
  | .pktProgramChange _ _ _ => .receive
  | .pktChannelPressure _ _ _ => .receive
  | .pktPitchBend _ _ _ _ => .receive
  | .pktSingleByte _ _ => .receive

/-! ## Received packets -/

/-- The packet of a step's input, where it is an RX_FRAME in either form (00_scope.md R11; log 3). -/
def rxPacket? (x : CmdInput) : Option Word32 :=
  match decode x, x with
  | .rxFrame p, _ => some p
  | _, .frame p => some p
  | _, _ => none

/-- The kind of a packet in P notation (30_encoding.md R106). -/
def kindOf (p : Word32) : Kind := kind (pktCin p) (byteAt1 p)

/-- The packet goes to its cable's reassembler. -/
def isSysex (p : Word32) : Bool :=
  match kindOf p with
  | .reserved | .msg => false
  | .sxStart | .sxCont | .sxEnd | .sxComplete => true

/-- The packet of a step's input, where it is a sysex packet of cable `c`. -/
def sysexPacket? (c : Nibble) (x : CmdInput) : Option Word32 :=
  (rxPacket? x).filter fun p => isSysex p && pktCable p == c

/-- The meaningful bytes of a packet (30_encoding.md R102, R105). -/
def meaningful (p : Word32) : List Byte := [byteAt1 p, byteAt2 p, byteAt3 p].take (cinCount (pktCin p))

/-- The event is one of cable `c`'s reassembler. -/
def Event.isSysexOf (c : Nibble) : Event → Bool
  | .message _ _ => false
  | .sysexStart c' => c' == c
  | .sysexData c' _ => c' == c
  | .sysexEnd c' _ _ => c' == c

/-! ## The framed stream of a session -/

/-- S[0 .. L-1]: 0xF0, the payload, 0xF7 (42_transmit.md R225). -/
def framedStream (payload : List Byte) : List Byte := 0xF0 :: (payload ++ [0xF7])

/-- The packets a framed stream is sent in: groups of three in CIN 0x4, and the last group of one, two or three bytes
in CIN 0x5, 0x6 or 0x7, zero-padded (40_codec.md R159, 42_transmit.md R227, R231). -/
def sysexPackets (c : Nibble) : List Byte → List Packet
  | [] => []
  | [x] => [⟨c ++ (0x5 : Nibble), x, 0, 0⟩]
  | [x, y] => [⟨c ++ (0x6 : Nibble), x, y, 0⟩]
  | [x, y, z] => [⟨c ++ (0x7 : Nibble), x, y, z⟩]
  | x :: y :: z :: rest => ⟨c ++ (0x4 : Nibble), x, y, z⟩ :: sysexPackets c rest

/-- The bytes of packets in wire order. -/
def packetBytes (ps : List Packet) : List Byte := ps.flatMap Packet.bytes

/-! ## Duties of the environment -/

/-- The transport completes only a transfer it holds (60_exceptions.md R297), and the host does not RESET while one is
in flight (70_reset_and_hazards.md R326). -/
def State.Dutiful (s : State) : Prop :=
  ∀ i ∈ s.queue.head?,
    (decode i.cmd = .txComplete → s.held ≠ []) ∧ (decode i.cmd = .reset → s.held = [])

/-- The two sides of the transport boundary agree on what is in flight (10_state.md R51): the transport holds the one
transfer tx_state says, or none. -/
def State.TransportAgrees (s : State) : Prop :=
  s.held =
    match s.txState with
    | .idle => []
    | .fixedInflight => [⟨.fxPkt, 1⟩]
    | .sxWaitMid => [⟨.txBuf, s.txFill⟩]
    | .sxWaitLast => [⟨.txBuf, s.txFill⟩]

end Sys2Proof.Machine
end

