-- ==== Sys2Proof/Certificates/Slice0/Obligations.lean ====
section
/-! DEFINITION. The statements for the provers, one definition each. -/

open Sys2Proof Sys2Proof.Machine

/-- 10_state.md R55: the state after power-on of every block (every value of the parameters), and the state after a RESET from any
state. The contents of tx_buf are unspecified by the rule and not stated. -/
def Obligations.ResetHoldsTheResetValues : Prop :=
  (∀ (p : Params) (u : State), u = State.resetWith p →
    u.txState = .idle ∧ u.busy = false ∧ u.txOccupied = false ∧
    u.txCable = 0 ∧ u.txLen = 0 ∧ u.txPos = 0 ∧ u.txFill = 0 ∧ u.txLastResult = .ok ∧
    u.fxPkt = ⟨0, 0, 0, 0⟩ ∧ u.txSrc = none ∧ (∀ c : Nibble, u.rxGet c = ⟨.idle, 0, 0⟩) ∧
    u.rxReservedCount = 0 ∧ u.rxDiscardCount = 0) ∧
  ∀ s : State, ∃ u, exec .reset s = .next u ∧
    u.txState = .idle ∧ u.busy = false ∧ u.txOccupied = false ∧
    u.txCable = 0 ∧ u.txLen = 0 ∧ u.txPos = 0 ∧ u.txFill = 0 ∧ u.txLastResult = .ok ∧
    u.fxPkt = ⟨0, 0, 0, 0⟩ ∧ u.txSrc = none ∧ (∀ c : Nibble, u.rxGet c = ⟨.idle, 0, 0⟩) ∧
    u.rxReservedCount = 0 ∧ u.rxDiscardCount = 0

/-- The reset state of every block meets the invariant (10_state.md section 4). The invariant's clauses on the absent
cables and on memories are the model's (log 7, log 14). -/
def Obligations.ResetMeetsTheInvariant : Prop :=
  ∀ p : Params, (State.resetWith p).Inv

/-- Every step from a state that meets the invariant leads to one that does: the transmit invariants of 10_state.md
section 4, the register ranges, and the canonical form of the memories. -/
def Obligations.StepKeepsTheInvariant : Prop :=
  ∀ s t : State, s.Inv → step s = .next t → t.Inv

/-- 60_exceptions.md R290: no condition stops the block. -/
def Obligations.EveryStepAnswersANextState : Prop :=
  ∀ s : State, ∃ t, step s = .next t

/-- 20_memory.md section 6, 00_scope.md section 4: a step executes one command, in the state with the step's inputs taken; with none pending
the block holds its state. How the inputs stand in the state, and that the outputs of the step before are gone when none is pending, is
the model's (log 2, log 8, log 12). -/
def Obligations.StepRunsTheDecodedInstruction : Prop :=
  ∀ s : State,
    (∀ (i : StepInput) (rest : List StepInput), s.queue = i :: rest →
      step s = exec (decode i.cmd)
        { s with queue := rest, pins := i.pins, srcMem := s.srcMem.writeAll i.hostWrites }) ∧
    (s.queue = [] → step s = .next { s with out := none })

/-- A table word of 64 bits, or a packet of 32, that the decoder reads as an instruction, once placed before the pending
inputs, is the instruction the next step runs (log 2, log 3, log 6). -/
def Obligations.AFetchedWordIsRunNext : Prop :=
  ∀ (s : State) (w : Nat) (i : Instr),
    (w < 2 ^ 64 → decodeTableWord 64 w = some i → step (s.withFetchWord 64 w) = exec i s) ∧
    (w < 2 ^ 32 → decodeTableWord 32 w = some i → step (s.withFetchWord 32 w) = exec i s)

/-- Every well-formed instruction, with every operand at every value its row admits, is what its encoding decodes to. -/
def Obligations.DecodeOfEncodeIsTheInstruction : Prop :=
  ∀ i : Instr, i.wf = true → decode (encode i) = i

/-- Every command word and every packet decodes to a well-formed instruction (30_encoding.md section 2, section 4). -/
def Obligations.DecodedInstructionsAreWellFormed : Prop :=
  ∀ x : CmdInput, (decode x).wf = true

/-- 30_encoding.md R109: the row of a packet fits it, and no row with a wider mask does. -/
def Obligations.APacketDecodesToItsWidestRow : Prop :=
  ∀ p : Word32, ∃ r ∈ pktRows,
    r.mnemonic = (decodePacket p).mnemonic ∧ r.fits p = true ∧
    ∀ r' ∈ pktRows, r'.fits p = true → r'.mask &&& r.mask = r'.mask

/-- The same for command words, whose rows are the commands, the reserved OPs and the status classes of TX_FIXED. That
the wider mask wins among these is the model's (log 4). -/
def Obligations.ACommandWordDecodesToItsWidestRow : Prop :=
  ∀ w : Word64, ∃ r ∈ cmdRows,
    r.mnemonic = (decodeWord w).mnemonic ∧ r.fits w = true ∧
    ∀ r' ∈ cmdRows, r'.fits w = true → r'.mask &&& r.mask = r'.mask

/-- 30_encoding.md R126, R123: two command words that agree on OP and on the fields their command reads do the same in
every state. TX_FIXED reads CABLE, LEN and the first LEN bytes. -/
def Obligations.IgnoredFieldsChangeNothing : Prop :=
  ∀ (w w' : Word64) (s : State), fieldOp w = fieldOp w' →
    (fieldOp w = 0x1 → fieldArg w = fieldArg w') →
    (fieldOp w = 0x2 → fieldCable w = fieldCable w' ∧ fieldLen w = fieldLen w' ∧
      (1 ≤ (fieldLen w).toNat → byteAt0 (fieldArg w) = byteAt0 (fieldArg w')) ∧
      (2 ≤ (fieldLen w).toNat → byteAt1 (fieldArg w) = byteAt1 (fieldArg w')) ∧
      (3 ≤ (fieldLen w).toNat → byteAt2 (fieldArg w) = byteAt2 (fieldArg w'))) →
    (fieldOp w = 0x3 → fieldCable w = fieldCable w' ∧ fieldArg w = fieldArg w') →
    (fieldOp w = 0x5 → byteAt3 (fieldArg w) = byteAt3 (fieldArg w')) →
    exec (decodeWord w) s = exec (decodeWord w') s

/-- 30_encoding.md R121, R131 and the examples of 40_codec.md and 41_receive.md: words written out from the
encoding, one or more of each family. -/
def Obligations.WrittenOutWordsDecode : Prop :=
  decodeWord 0x1000000019904064 = .rxFrame 0x19904064 ∧
  decodeWord 0x2100000390407F00 = .stNoteOn 1 0x90 0x40 0x7F ∧
  decodeWord 0x23000002C50A0000 = .stProgramChange 3 0xC5 0x0A ∧
  decodeWord 0x2F000001F8000000 = .stRealtime 15 0xF8 ∧
  decodeWord 0x2000000290400000 = .txFixed 0 2 0x90 0x40 0x00 ∧
  decodeWord 0x3300000000000004 = .txSysex 3 4 ∧
  decodeWord 0x4000000000000000 = .txComplete ∧
  decodeWord 0x5000000000000107 = .read 0x07 ∧
  decodeWord 0x6000000000000000 = .reset ∧
  decodeWord 0x7000000000000000 = .reservedOp7 ∧
  decodePacket 0x04F00102 = .pktSxStart 0 0x01 0x02 ∧
  decodePacket 0x3CC50A00 = .pktProgramChange 3 0xC5 0x0A

/-- 30_encoding.md R105: the count of every CIN. -/
def Obligations.CinCountIsTheTable : Prop :=
  (List.range 16).map (fun n => cinCount (BitVec.ofNat 4 n)) = [0, 0, 2, 3, 3, 1, 2, 3, 3, 3, 3, 3, 2, 2, 3, 1]

/-- 40_codec.md R140: cable and CIN are the nibbles of byte 0, and the data are the first CinCount(cin) of the bytes after
it. -/
def Obligations.DecodeReadsTheMeaningfulBytes : Prop :=
  ∀ p : Word32, (Packet.ofWord p).decode =
    ⟨pktCable p, pktCin p, cinCount (pktCin p), [byteAt1 p, byteAt2 p, byteAt3 p].take (cinCount (pktCin p))⟩

/-- 30_encoding.md R112, 40_codec.md R143, R157: EncodeFixed gives a CIN exactly in the rows of the table, and that row's CIN.
The bytes at a position from `len` on are not read. -/
def Obligations.EncodeFixedIsTheStatusClassTable : Prop :=
  ∀ (len : Nat) (b0 b1 b2 : Byte) (cin : Nibble), len ≤ 3 →
    (encodeFixed len b0 b1 b2 = some cin ↔
      (0x80 ≤ b0 ∧ b0 ≤ 0x8F ∧ len = 3 ∧ cin = 0x8) ∨ (0x90 ≤ b0 ∧ b0 ≤ 0x9F ∧ len = 3 ∧ cin = 0x9) ∨
      (0xA0 ≤ b0 ∧ b0 ≤ 0xAF ∧ len = 3 ∧ cin = 0xA) ∨ (0xB0 ≤ b0 ∧ b0 ≤ 0xBF ∧ len = 3 ∧ cin = 0xB) ∨
      (0xC0 ≤ b0 ∧ b0 ≤ 0xCF ∧ len = 2 ∧ cin = 0xC) ∨ (0xD0 ≤ b0 ∧ b0 ≤ 0xDF ∧ len = 2 ∧ cin = 0xD) ∨
      (0xE0 ≤ b0 ∧ b0 ≤ 0xEF ∧ len = 3 ∧ cin = 0xE) ∨
      (b0 = 0xF0 ∧ len = 2 ∧ b1 = 0xF7 ∧ cin = 0x6) ∨ (b0 = 0xF0 ∧ len = 3 ∧ b2 = 0xF7 ∧ cin = 0x7) ∨
      (b0 = 0xF1 ∧ len = 2 ∧ cin = 0x2) ∨ (b0 = 0xF2 ∧ len = 3 ∧ cin = 0x3) ∨ (b0 = 0xF3 ∧ len = 2 ∧ cin = 0x2) ∨
      (b0 = 0xF6 ∧ len = 1 ∧ cin = 0x5) ∨ (0xF8 ≤ b0 ∧ len = 1 ∧ cin = 0x5))

/-- The round-trip law of 40_codec.md section 4. -/
def Obligations.EncodedMessagesDecodeBack : Prop :=
  ∀ (c cin : Nibble) (len : Nat) (b0 b1 b2 : Byte), 1 ≤ len → len ≤ 3 → encodeFixed len b0 b1 b2 = some cin →
    (pack c cin ([b0, b1, b2].take len)).decode = ⟨c, cin, len, [b0, b1, b2].take len⟩

/-- 40_codec.md R158: byte 0 is (cable << 4) | cin, and the bytes of the group are padded with zeros. -/
def Obligations.PackPadsWithZeros : Prop :=
  ∀ (c cin : Nibble) (g : List Byte), g.length ≤ 3 →
    (pack c cin g).b0 = (c.setWidth 8 <<< 4) ||| cin.setWidth 8 ∧
    [(pack c cin g).b1, (pack c cin g).b2, (pack c cin g).b3] = g ++ List.replicate (3 - g.length) 0

/-- 40_codec.md R159: a group of a framed stream is carried whole, in CIN 0x4 where it is not final (and then has three
bytes) and in CIN 4 + k where it is final and has k. -/
def Obligations.SysexGroupsDecodeBack : Prop :=
  ∀ (c : Nibble) (g : List Byte) (final : Bool), 1 ≤ g.length → g.length ≤ 3 → (final = false → g.length = 3) →
    encodeSysex c g final = pack c (if final then BitVec.ofNat 4 (4 + g.length) else 0x4) g ∧
    (encodeSysex c g final).decode = ⟨c, if final then BitVec.ofNat 4 (4 + g.length) else 0x4, g.length, g⟩

/-- 30_encoding.md R109, 41_receive.md R180: RX_FRAME of a packet does what the packet's row of the table does. -/
def Obligations.RxFrameRunsItsPacketRow : Prop :=
  ∀ (p : Word32) (s : State), exec (.rxFrame p) s = exec (decodePacket p) s

/-- 41_receive.md R189, R180: RX_FRAME returns OK for every packet in every state, and writes no transmit state. -/
def Obligations.RxFrameAlwaysAnswersOk : Prop :=
  ∀ (p : Word32) (s : State), ∃ t es, exec (.rxFrame p) s = .next t ∧ t.out = some ⟨.ok, 0, es, none⟩ ∧
    t.txState = s.txState ∧ t.txCable = s.txCable ∧ t.txLen = s.txLen ∧ t.txPos = s.txPos ∧ t.txFill = s.txFill ∧
    t.txBuf = s.txBuf ∧ t.txLastResult = s.txLastResult ∧ t.fxPkt = s.fxPkt ∧ t.txSrc = s.txSrc ∧
    t.held = s.held ∧ t.srcMem = s.srcMem ∧ t.params = s.params

/-- 41_receive.md R181, R190, R191: a packet with CIN 0x0 or 0x1, whatever its cable, is counted and changes nothing
else. -/
def Obligations.ReservedPacketsAreCounted : Prop :=
  ∀ (c : Nibble) (s : State),
    exec (.pktReserved0 c) s
      = .next { s with rxReservedCount := s.rxReservedCount + 1, out := some ⟨.ok, 0, [], none⟩ } ∧
    exec (.pktReserved1 c) s
      = .next { s with rxReservedCount := s.rxReservedCount + 1, out := some ⟨.ok, 0, [], none⟩ } ∧
    ∀ p : Word32, pktCin p = 0x0 ∨ pktCin p = 0x1 →
      exec (.rxFrame p) s
        = .next { s with rxReservedCount := s.rxReservedCount + 1, out := some ⟨.ok, 0, [], none⟩ }

/-- 41_receive.md R182: a packet whose CIN is not reserved, on a cable the block has not, is counted and changes nothing
else, as RX_FRAME and as each of the 18 packet rows. -/
def Obligations.PacketsOnAbsentCablesAreDiscarded : Prop :=
  ∀ (p : Word32) (s : State), 2 ≤ (pktCin p).toNat → s.params.nCables ≤ (pktCable p).toNat →
    exec (.rxFrame p) s
      = .next { s with rxDiscardCount := s.rxDiscardCount + 1, out := some ⟨.ok, 0, [], none⟩ } ∧
    exec (decodePacket p) s
      = .next { s with rxDiscardCount := s.rxDiscardCount + 1, out := some ⟨.ok, 0, [], none⟩ }

/-- 41_receive.md R183: a packet of kind MSG on a cable the block has is delivered as its meaningful bytes, and no state changes. -/
def Obligations.MessagePacketsAreDelivered : Prop :=
  ∀ (p : Word32) (s : State), kindOf p = .msg → (pktCable p).toNat < s.params.nCables →
    exec (.rxFrame p) s = .next { s with out := some ⟨.ok, 0, [.message (pktCable p) (meaningful p)], none⟩ }

/-- 41_receive.md R193, R202 to R205, R208: the message rows of three bytes, by row and as the received packet. -/
def Obligations.ThreeByteMessageRowsAreDelivered : Prop :=
  ∀ (c : Nibble) (b1 b2 b3 : Byte) (s : State), c.toNat < s.params.nCables →
    exec (.pktSyscom3 c b1 b2 b3) s = .next { s with out := some ⟨.ok, 0, [.message c [b1, b2, b3]], none⟩ } ∧
    exec (.rxFrame (pktWord c 0x3 b1 b2 b3)) s = .next { s with out := some ⟨.ok, 0, [.message c [b1, b2, b3]], none⟩ } ∧
    exec (.pktNoteOff c b1 b2 b3) s = .next { s with out := some ⟨.ok, 0, [.message c [b1, b2, b3]], none⟩ } ∧
    exec (.rxFrame (pktWord c 0x8 b1 b2 b3)) s = .next { s with out := some ⟨.ok, 0, [.message c [b1, b2, b3]], none⟩ } ∧
    exec (.pktNoteOn c b1 b2 b3) s = .next { s with out := some ⟨.ok, 0, [.message c [b1, b2, b3]], none⟩ } ∧
    exec (.rxFrame (pktWord c 0x9 b1 b2 b3)) s = .next { s with out := some ⟨.ok, 0, [.message c [b1, b2, b3]], none⟩ } ∧
    exec (.pktPolyPressure c b1 b2 b3) s = .next { s with out := some ⟨.ok, 0, [.message c [b1, b2, b3]], none⟩ } ∧
    exec (.rxFrame (pktWord c 0xA b1 b2 b3)) s = .next { s with out := some ⟨.ok, 0, [.message c [b1, b2, b3]], none⟩ } ∧
    exec (.pktControlChange c b1 b2 b3) s = .next { s with out := some ⟨.ok, 0, [.message c [b1, b2, b3]], none⟩ } ∧
    exec (.rxFrame (pktWord c 0xB b1 b2 b3)) s = .next { s with out := some ⟨.ok, 0, [.message c [b1, b2, b3]], none⟩ } ∧
    exec (.pktPitchBend c b1 b2 b3) s = .next { s with out := some ⟨.ok, 0, [.message c [b1, b2, b3]], none⟩ } ∧
    exec (.rxFrame (pktWord c 0xE b1 b2 b3)) s = .next { s with out := some ⟨.ok, 0, [.message c [b1, b2, b3]], none⟩ }

/-- 41_receive.md R192, R197, R206, R207, R209: the message rows of two bytes and of one, by row and as the received packet, whatever its
padding. -/
def Obligations.ShortMessageRowsAreDelivered : Prop :=
  ∀ (c : Nibble) (b1 b2 b3 : Byte) (s : State), c.toNat < s.params.nCables →
    exec (.pktSyscom2 c b1 b2) s = .next { s with out := some ⟨.ok, 0, [.message c [b1, b2]], none⟩ } ∧
    exec (.rxFrame (pktWord c 0x2 b1 b2 b3)) s = .next { s with out := some ⟨.ok, 0, [.message c [b1, b2]], none⟩ } ∧
    exec (.pktProgramChange c b1 b2) s = .next { s with out := some ⟨.ok, 0, [.message c [b1, b2]], none⟩ } ∧
    exec (.rxFrame (pktWord c 0xC b1 b2 b3)) s = .next { s with out := some ⟨.ok, 0, [.message c [b1, b2]], none⟩ } ∧
    exec (.pktChannelPressure c b1 b2) s = .next { s with out := some ⟨.ok, 0, [.message c [b1, b2]], none⟩ } ∧
    exec (.rxFrame (pktWord c 0xD b1 b2 b3)) s = .next { s with out := some ⟨.ok, 0, [.message c [b1, b2]], none⟩ } ∧
    exec (.pktSingleSys c b1) s = .next { s with out := some ⟨.ok, 0, [.message c [b1]], none⟩ } ∧
    (b1 ≠ 0xF7 → exec (.rxFrame (pktWord c 0x5 b1 b2 b3)) s = .next { s with out := some ⟨.ok, 0, [.message c [b1]], none⟩ }) ∧
    exec (.pktSingleByte c b1) s = .next { s with out := some ⟨.ok, 0, [.message c [b1]], none⟩ } ∧
    exec (.rxFrame (pktWord c 0xF b1 b2 b3)) s = .next { s with out := some ⟨.ok, 0, [.message c [b1]], none⟩ }

/-- 41_receive.md R185, R194: in either state of the reassembler the session opens, the start is `now`, three bytes are counted,
and no SysexEnd is emitted. By row and as the received packet. -/
def Obligations.ASysexStartOpensTheSession : Prop :=
  ∀ (c : Nibble) (b2 b3 : Byte) (s : State), c.toNat < s.params.nCables →
    ∀ i ∈ [Instr.pktSxStart c b2 b3, .rxFrame (pktWord c 0x4 0xF0 b2 b3)],
      exec i s = .next { s with
        rx := s.rx.set c.toNat ⟨.receiving, 3, BitVec.ofNat 64 (s.pins.now.toNat % 2 ^ s.params.tsW)⟩
        out := some ⟨.ok, 0, [.sysexStart c, .sysexData c [b2, b3]], none⟩ }

/-- 41_receive.md R186, R195: while the reassembler is RECEIVING three bytes are counted and delivered; while it is IDLE the packet is an orphan,
counted and dropped. -/
def Obligations.ASysexContinueIsCountedAndDelivered : Prop :=
  ∀ (c : Nibble) (b1 b2 b3 : Byte) (s : State), c.toNat < s.params.nCables → b1 ≠ 0xF0 →
    ∀ i ∈ [Instr.pktSxCont c b1 b2 b3, .rxFrame (pktWord c 0x4 b1 b2 b3)],
      ((s.rxGet c).state = .receiving →
        exec i s = .next { s with
          rx := s.rx.set c.toNat ⟨.receiving, (s.rxGet c).count + 3, (s.rxGet c).start⟩
          out := some ⟨.ok, 0, [.sysexData c [b1, b2, b3]], none⟩ }) ∧
      ((s.rxGet c).state = .idle →
        exec i s = .next { s with rxDiscardCount := s.rxDiscardCount + 1, out := some ⟨.ok, 0, [], none⟩ })

/-- 41_receive.md R187, R196, R199, R201: while the reassembler is RECEIVING, an end packet counts all its bytes, delivers all but
the last, and ends the session with elapsed = (now - rx_start[c]) mod 2^TS_W; while it is IDLE the packet is an orphan, counted and dropped. -/
def Obligations.ASysexEndClosesTheSession : Prop :=
  ∀ (c : Nibble) (b1 b2 b3 : Byte) (s : State), c.toNat < s.params.nCables →
    ((s.rxGet c).state = .receiving →
      ∃ e : Word64, (e.toNat : Int) = ((s.pins.now.toNat : Int) - (s.rxGet c).start.toNat) % 2 ^ s.params.tsW ∧
      (∀ i ∈ [Instr.pktSxEnd1 c, .rxFrame (pktWord c 0x5 0xF7 b2 b3)],
        exec i s = .next { s with
          rx := s.rx.set c.toNat ⟨.idle, (s.rxGet c).count + 1, (s.rxGet c).start⟩
          out := some ⟨.ok, 0, [.sysexEnd c ((s.rxGet c).count + 1) e], none⟩ }) ∧
      (b1 ≠ 0xF0 → ∀ i ∈ [Instr.pktSxEnd2 c b1 b2, .rxFrame (pktWord c 0x6 b1 b2 b3)],
        exec i s = .next { s with
          rx := s.rx.set c.toNat ⟨.idle, (s.rxGet c).count + 2, (s.rxGet c).start⟩
          out := some ⟨.ok, 0, [.sysexData c [b1], .sysexEnd c ((s.rxGet c).count + 2) e], none⟩ }) ∧
      (b1 ≠ 0xF0 → ∀ i ∈ [Instr.pktSxEnd3 c b1 b2 b3, .rxFrame (pktWord c 0x7 b1 b2 b3)],
        exec i s = .next { s with
          rx := s.rx.set c.toNat ⟨.idle, (s.rxGet c).count + 3, (s.rxGet c).start⟩
          out := some ⟨.ok, 0, [.sysexData c [b1, b2], .sysexEnd c ((s.rxGet c).count + 3) e], none⟩ })) ∧
    ((s.rxGet c).state = .idle →
      (∀ i ∈ [Instr.pktSxEnd1 c, .rxFrame (pktWord c 0x5 0xF7 b2 b3)],
        exec i s = .next { s with rxDiscardCount := s.rxDiscardCount + 1, out := some ⟨.ok, 0, [], none⟩ }) ∧
      (b1 ≠ 0xF0 → ∀ i ∈ [Instr.pktSxEnd2 c b1 b2, .rxFrame (pktWord c 0x6 b1 b2 b3),
          .pktSxEnd3 c b1 b2 b3, .rxFrame (pktWord c 0x7 b1 b2 b3)],
        exec i s = .next { s with rxDiscardCount := s.rxDiscardCount + 1, out := some ⟨.ok, 0, [], none⟩ }))

/-- 41_receive.md R188, R198, R200: in either state of the reassembler a one-packet sysex is a session of its own, with elapsed
time 0. By row and as the received packet. -/
def Obligations.ACompleteSysexIsAStartAndAnEnd : Prop :=
  ∀ (c : Nibble) (b2 b3 : Byte) (s : State), c.toNat < s.params.nCables →
    (∀ i ∈ [Instr.pktSxComplete2 c b2, .rxFrame (pktWord c 0x6 0xF0 b2 b3)],
      exec i s = .next { s with
        rx := s.rx.set c.toNat ⟨.idle, 2, BitVec.ofNat 64 (s.pins.now.toNat % 2 ^ s.params.tsW)⟩
        out := some ⟨.ok, 0, [.sysexStart c, .sysexEnd c 2 0], none⟩ }) ∧
    (∀ i ∈ [Instr.pktSxComplete3 c b2 b3, .rxFrame (pktWord c 0x7 0xF0 b2 b3)],
      exec i s = .next { s with
        rx := s.rx.set c.toNat ⟨.idle, 3, BitVec.ofNat 64 (s.pins.now.toNat % 2 ^ s.params.tsW)⟩
        out := some ⟨.ok, 0, [.sysexStart c, .sysexData c [b2], .sysexEnd c 3 0], none⟩ })

/-- Cable independence, 41_receive.md section 3: an RX_FRAME writes no other cable's reassembler, and what it answers does not
depend on any other cable's. -/
def Obligations.CablesAreIndependent : Prop :=
  ∀ (p : Word32) (s t : State), exec (.rxFrame p) s = .next t →
    (∀ c : Nibble, c ≠ pktCable p → t.rxGet c = s.rxGet c) ∧
    ∀ (c : Nibble) (r : RxSession), c ≠ pktCable p →
      exec (.rxFrame p) (s.rxSet c r) = .next (t.rxSet c r)

/-- The session total, 41_receive.md section 3, over a run: whatever else the host issues in between (but a RESET), the packets of
one session on a cable, one SX_START, any SX_CONT and one SX_END or one SX_COMPLETE alone, lead to one SysexStart, data that are
the session's meaningful bytes without the first and the last, and one SysexEnd whose total counts them all.
That the inputs to come stand in the state is the model's (log 2). -/
def Obligations.ASessionEndsWithItsTotal : Prop :=
  ∀ (r : State) (c : Nibble) (ps : List Word32),
    c.toNat < r.params.nCables → (∀ i ∈ r.queue, decode i.cmd ≠ .reset) →
    r.queue.filterMap (fun i => sysexPacket? c i.cmd) = ps →
    ((∃ p conts q, ps = p :: (conts ++ [q]) ∧ kindOf p = .sxStart ∧ (∀ x ∈ conts, kindOf x = .sxCont) ∧ kindOf q = .sxEnd) ∨
      ∃ p, ps = [p] ∧ kindOf p = .sxComplete) →
    ∃ (datas : List (List Byte)) (e : Word64),
      (eventsOf (trace r.queue.length r)).filter (Event.isSysexOf c)
        = .sysexStart c :: (datas.map (Event.sysexData c) ++
            [.sysexEnd c (BitVec.ofNat 32 (ps.flatMap meaningful).length) e]) ∧
      datas.flatten = ((ps.flatMap meaningful).drop 1).dropLast

/-- 40_codec.md R144 to R147, R150, R153: the status classes of three bytes. EncodeFixed gives the class's CIN for that length and fails for every
other; and the class's row of TX_FIXED, on a cable the block has, from IDLE, with the transport accepting, sends the packet and writes
nothing but fx_pkt and tx_state.
`held` is the model's record of the transport's side: that clause is the model's choice (log 11), no rule's. -/
def Obligations.ThreeByteMessagesAreSent : Prop :=
  ∀ (c : Nibble) (b0 b1 b2 : Byte) (s : State),
    (∀ len : Nat,
      (0x80 ≤ b0 ∧ b0 ≤ 0x8F → encodeFixed len b0 b1 b2 = if len = 3 then some 0x8 else none) ∧
      (0x90 ≤ b0 ∧ b0 ≤ 0x9F → encodeFixed len b0 b1 b2 = if len = 3 then some 0x9 else none) ∧
      (0xA0 ≤ b0 ∧ b0 ≤ 0xAF → encodeFixed len b0 b1 b2 = if len = 3 then some 0xA else none) ∧
      (0xB0 ≤ b0 ∧ b0 ≤ 0xBF → encodeFixed len b0 b1 b2 = if len = 3 then some 0xB else none) ∧
      (0xE0 ≤ b0 ∧ b0 ≤ 0xEF → encodeFixed len b0 b1 b2 = if len = 3 then some 0xE else none) ∧
      (b0 = 0xF2 → encodeFixed len b0 b1 b2 = if len = 3 then some 0x3 else none)) ∧
    (c.toNat < s.params.nCables → s.txState = .idle → s.pins.sendOk = true →
      exec (.stNoteOff c b0 b1 b2) s = .next { s with
        fxPkt := ⟨c ++ (0x8 : Nibble), b0, b1, b2⟩, txState := .fixedInflight, held := s.held ++ [⟨.fxPkt, 1⟩]
        out := some ⟨.ok, 0, [], some [c ++ (0x8 : Nibble), b0, b1, b2]⟩ } ∧
      exec (.stNoteOn c b0 b1 b2) s = .next { s with
        fxPkt := ⟨c ++ (0x9 : Nibble), b0, b1, b2⟩, txState := .fixedInflight, held := s.held ++ [⟨.fxPkt, 1⟩]
        out := some ⟨.ok, 0, [], some [c ++ (0x9 : Nibble), b0, b1, b2]⟩ } ∧
      exec (.stPolyPressure c b0 b1 b2) s = .next { s with
        fxPkt := ⟨c ++ (0xA : Nibble), b0, b1, b2⟩, txState := .fixedInflight, held := s.held ++ [⟨.fxPkt, 1⟩]
        out := some ⟨.ok, 0, [], some [c ++ (0xA : Nibble), b0, b1, b2]⟩ } ∧
      exec (.stControlChange c b0 b1 b2) s = .next { s with
        fxPkt := ⟨c ++ (0xB : Nibble), b0, b1, b2⟩, txState := .fixedInflight, held := s.held ++ [⟨.fxPkt, 1⟩]
        out := some ⟨.ok, 0, [], some [c ++ (0xB : Nibble), b0, b1, b2]⟩ } ∧
      exec (.stPitchBend c b0 b1 b2) s = .next { s with
        fxPkt := ⟨c ++ (0xE : Nibble), b0, b1, b2⟩, txState := .fixedInflight, held := s.held ++ [⟨.fxPkt, 1⟩]
        out := some ⟨.ok, 0, [], some [c ++ (0xE : Nibble), b0, b1, b2]⟩ } ∧
      exec (.stSongPosition c b1 b2) s = .next { s with
        fxPkt := ⟨c ++ (0x3 : Nibble), 0xF2, b1, b2⟩, txState := .fixedInflight, held := s.held ++ [⟨.fxPkt, 1⟩]
        out := some ⟨.ok, 0, [], some [c ++ (0x3 : Nibble), 0xF2, b1, b2]⟩ })

/-- 40_codec.md R148, R149, R152, R154 to R156: the status classes of two bytes and of one, as in the statement on three. The packet is
zero-padded, whatever the bytes past the length are.
`held` is the model's record of the transport's side: that clause is the model's choice (log 11), no rule's. -/
def Obligations.ShortMessagesAreSent : Prop :=
  ∀ (c : Nibble) (b0 b1 b2 : Byte) (s : State),
    (∀ len : Nat,
      (0xC0 ≤ b0 ∧ b0 ≤ 0xCF → encodeFixed len b0 b1 b2 = if len = 2 then some 0xC else none) ∧
      (0xD0 ≤ b0 ∧ b0 ≤ 0xDF → encodeFixed len b0 b1 b2 = if len = 2 then some 0xD else none) ∧
      (b0 = 0xF1 → encodeFixed len b0 b1 b2 = if len = 2 then some 0x2 else none) ∧
      (b0 = 0xF3 → encodeFixed len b0 b1 b2 = if len = 2 then some 0x2 else none) ∧
      (b0 = 0xF6 → encodeFixed len b0 b1 b2 = if len = 1 then some 0x5 else none) ∧
      (0xF8 ≤ b0 → encodeFixed len b0 b1 b2 = if len = 1 then some 0x5 else none)) ∧
    (c.toNat < s.params.nCables → s.txState = .idle → s.pins.sendOk = true →
      exec (.stProgramChange c b0 b1) s = .next { s with
        fxPkt := ⟨c ++ (0xC : Nibble), b0, b1, 0⟩, txState := .fixedInflight, held := s.held ++ [⟨.fxPkt, 1⟩]
        out := some ⟨.ok, 0, [], some [c ++ (0xC : Nibble), b0, b1, 0]⟩ } ∧
      exec (.stChannelPressure c b0 b1) s = .next { s with
        fxPkt := ⟨c ++ (0xD : Nibble), b0, b1, 0⟩, txState := .fixedInflight, held := s.held ++ [⟨.fxPkt, 1⟩]
        out := some ⟨.ok, 0, [], some [c ++ (0xD : Nibble), b0, b1, 0]⟩ } ∧
      exec (.stMtcQuarterFrame c b1) s = .next { s with
        fxPkt := ⟨c ++ (0x2 : Nibble), 0xF1, b1, 0⟩, txState := .fixedInflight, held := s.held ++ [⟨.fxPkt, 1⟩]
        out := some ⟨.ok, 0, [], some [c ++ (0x2 : Nibble), 0xF1, b1, 0]⟩ } ∧
      exec (.stSongSelect c b1) s = .next { s with
        fxPkt := ⟨c ++ (0x2 : Nibble), 0xF3, b1, 0⟩, txState := .fixedInflight, held := s.held ++ [⟨.fxPkt, 1⟩]
        out := some ⟨.ok, 0, [], some [c ++ (0x2 : Nibble), 0xF3, b1, 0]⟩ } ∧
      exec (.stTuneRequest c) s = .next { s with
        fxPkt := ⟨c ++ (0x5 : Nibble), 0xF6, 0, 0⟩, txState := .fixedInflight, held := s.held ++ [⟨.fxPkt, 1⟩]
        out := some ⟨.ok, 0, [], some [c ++ (0x5 : Nibble), 0xF6, 0, 0]⟩ } ∧
      exec (.stRealtime c b0) s = .next { s with
        fxPkt := ⟨c ++ (0x5 : Nibble), b0, 0, 0⟩, txState := .fixedInflight, held := s.held ++ [⟨.fxPkt, 1⟩]
        out := some ⟨.ok, 0, [], some [c ++ (0x5 : Nibble), b0, 0, 0]⟩ })

/-- 40_codec.md R151: a first byte 0xF0 makes a message of two or three bytes whose last is 0xF7, in CIN 0x6 or 0x7, and no other; the two
rows of TX_FIXED send it, or return InvalidMessage and write nothing.
`held` is the model's record of the transport's side: that clause is the model's choice (log 11), no rule's. -/
def Obligations.CompleteSysexMessagesAreSent : Prop :=
  ∀ (c : Nibble) (b1 b2 : Byte) (s : State), c.toNat < s.params.nCables →
    (∀ len : Nat, len ≤ 3 → encodeFixed len 0xF0 b1 b2 =
      if (len = 2 ∧ b1 = 0xF7) ∨ (len = 3 ∧ b2 = 0xF7) then some (BitVec.ofNat 4 (4 + len)) else none) ∧
    (s.txState = .idle → s.pins.sendOk = true →
    exec (.stSysexComplete2 c 0xF7) s = .next { s with
      fxPkt := ⟨c ++ (0x6 : Nibble), 0xF0, 0xF7, 0⟩, txState := .fixedInflight, held := s.held ++ [⟨.fxPkt, 1⟩]
      out := some ⟨.ok, 0, [], some [c ++ (0x6 : Nibble), 0xF0, 0xF7, 0]⟩ } ∧
    exec (.stSysexComplete3 c b1 0xF7) s = .next { s with
      fxPkt := ⟨c ++ (0x7 : Nibble), 0xF0, b1, 0xF7⟩, txState := .fixedInflight, held := s.held ++ [⟨.fxPkt, 1⟩]
      out := some ⟨.ok, 0, [], some [c ++ (0x7 : Nibble), 0xF0, b1, 0xF7]⟩ }) ∧
    (b1 ≠ 0xF7 → exec (.stSysexComplete2 c b1) s = .next { s with out := some ⟨.invalidMessage, 0, [], none⟩ }) ∧
    (b2 ≠ 0xF7 → exec (.stSysexComplete3 c b1 b2) s = .next { s with out := some ⟨.invalidMessage, 0, [], none⟩ })

/-- 42_transmit.md R221: TX_FIXED in every case, its checks in order (60_exceptions.md section 2). A refused send leaves fx_pkt written and
tx_state IDLE.
`held` is the model's record of the transport's side: that clause is the model's choice (log 11), no rule's. -/
def Obligations.TxFixedSendsOneMessage : Prop :=
  ∀ (c : Nibble) (len : BitVec 2) (b0 b1 b2 : Byte) (s : State),
    (s.params.nCables ≤ c.toNat ∨ encodeFixed len.toNat b0 b1 b2 = none →
      exec (.txFixed c len b0 b1 b2) s = .next { s with out := some ⟨.invalidMessage, 0, [], none⟩ }) ∧
    ∀ cin : Nibble, c.toNat < s.params.nCables → encodeFixed len.toNat b0 b1 b2 = some cin →
      (s.txState ≠ .idle →
        exec (.txFixed c len b0 b1 b2) s = .next { s with out := some ⟨.sessionBusy, 0, [], none⟩ }) ∧
      (s.txState = .idle → s.pins.sendOk = true →
        exec (.txFixed c len b0 b1 b2) s = .next { s with
          fxPkt := pack c cin ([b0, b1, b2].take len.toNat), txState := .fixedInflight
          held := s.held ++ [⟨.fxPkt, 1⟩]
          out := some ⟨.ok, 0, [], some (pack c cin ([b0, b1, b2].take len.toNat)).bytes⟩ }) ∧
      (s.txState = .idle → s.pins.sendOk = false →
        exec (.txFixed c len b0 b1 b2) s = .next { s with
          fxPkt := pack c cin ([b0, b1, b2].take len.toNat)
          out := some ⟨.transportFailure, 0, [], some (pack c cin ([b0, b1, b2].take len.toNat)).bytes⟩ })

/-- 30_encoding.md R112, 42_transmit.md R221: a TX_FIXED word does what its row of the status-class table does. Which row that is
is the model's where the table does not say (log 4). -/
def Obligations.TxFixedRunsItsStatusRow : Prop :=
  ∀ (c : Nibble) (len : BitVec 2) (b0 b1 b2 : Byte) (s : State),
    exec (.txFixed c len b0 b1 b2) s = exec (decodeFixed c len b0 b1 b2) s

/-- 40_codec.md R157: a first byte 0x00 to 0x7F, 0xF4, 0xF5 or 0xF7 makes no message of any length, and the three rows of TX_FIXED for
them return InvalidMessage and write nothing, in every state. -/
def Obligations.MessagesWithNoClassAreInvalid : Prop :=
  ∀ (c : Nibble) (len : BitVec 2) (b0 b1 b2 : Byte) (s : State),
    (b0 ≤ 0x7F ∨ b0 = 0xF4 ∨ b0 = 0xF5 ∨ b0 = 0xF7 → ∀ k : Nat, encodeFixed k b0 b1 b2 = none) ∧
    exec (.stInvalidData c len b0 b1 b2) s = .next { s with out := some ⟨.invalidMessage, 0, [], none⟩ } ∧
    exec (.stInvalidUndefined c len b0 b1 b2) s = .next { s with out := some ⟨.invalidMessage, 0, [], none⟩ } ∧
    exec (.stInvalidEox c len b1 b2) s = .next { s with out := some ⟨.invalidMessage, 0, [], none⟩ }

/-- 43_control.md R263: the ten reserved OPs return InvalidMessage and change no state. -/
def Obligations.ReservedCommandsAreInvalid : Prop :=
  ∀ (s : State),
    ∀ i ∈ [Instr.reservedOp0, .reservedOp7, .reservedOp8, .reservedOp9, .reservedOpA, .reservedOpB, .reservedOpC,
        .reservedOpD, .reservedOpE, .reservedOpF],
      exec i s = .next { s with out := some ⟨.invalidMessage, 0, [], none⟩ }

/-- 60_exceptions.md R282: every TX_FIXED and every TX_SYSEX whose operands are valid, issued while tx_state is not IDLE, returns
SessionBusy and writes nothing, as a command word. -/
def Obligations.BusyBlocksTurnAwayNewTransfers : Prop :=
  ∀ (w : Word64) (s : State), s.txState ≠ .idle → (fieldCable w).toNat < s.params.nCables →
    (fieldOp w = 0x2 ∧ (∃ cin, encodeFixed (fieldLen w).toNat (byteAt0 (fieldArg w)) (byteAt1 (fieldArg w))
        (byteAt2 (fieldArg w)) = some cin)) ∨
      (fieldOp w = 0x3 ∧ (fieldArg w).toNat ≤ 2 ^ 32 - 3) →
    exec (decodeWord w) s = .next { s with out := some ⟨.sessionBusy, 0, [], none⟩ }

/-- 42_transmit.md R224: TX_SYSEX in every case. Its operands are checked before tx_state, and a refused one writes nothing. An accepted one writes
the session registers, packs up to CAP packets of three framed bytes each, sends them, and takes its state and result from the transport's
answer; tx_buf changes in the bytes sent and in no other, and nothing outside the transmit registers is written.
`held` is the model's record of the transport's side: that clause is the model's choice (log 11), no rule's. -/
def Obligations.TxSysexPacksAndSendsTheFirstTransfer : Prop :=
  ∀ (c : Nibble) (n : Word32) (s : State),
    (s.params.nCables ≤ c.toNat ∨ 2 ^ 32 - 3 < n.toNat →
      exec (.txSysex c n) s = .next { s with out := some ⟨.invalidMessage, 0, [], none⟩ }) ∧
    (c.toNat < s.params.nCables → n.toNat ≤ 2 ^ 32 - 3 → s.txState ≠ .idle →
      exec (.txSysex c n) s = .next { s with out := some ⟨.sessionBusy, 0, [], none⟩ }) ∧
    (c.toNat < s.params.nCables → n.toNat ≤ 2 ^ 32 - 3 → s.txState = .idle →
    ∃ t bytes, exec (.txSysex c n) s = .next t ∧
      t.txCable = c ∧ t.txLen = n + 2 ∧ t.txSrc = some s.pins.src ∧
      t.txFill = min s.params.cap ((n.toNat + 4) / 3) ∧
      t.txPos.toNat = min (n.toNat + 2) (3 * s.params.cap) ∧
      bytes.length = 4 * t.txFill ∧
      (∀ a, a < 4 * t.txFill → t.txBuf.read a = bytes[a]?) ∧
      (∀ a, 4 * t.txFill ≤ a → t.txBuf.read a = s.txBuf.read a) ∧
      (if s.pins.sendOk = true then
        t.txState = (if n.toNat + 2 ≤ 3 * s.params.cap then .sxWaitLast else .sxWaitMid) ∧
        t.txLastResult = s.txLastResult ∧ t.held = s.held ++ [⟨.txBuf, t.txFill⟩] ∧
        t.out = some ⟨.ok, 0, [], some bytes⟩
      else
        t.txState = .idle ∧ t.txLastResult = .transportFailure ∧ t.held = s.held ∧
        t.out = some ⟨.transportFailure, 0, [], some bytes⟩) ∧
      t.rx = s.rx ∧ t.rxReservedCount = s.rxReservedCount ∧ t.rxDiscardCount = s.rxDiscardCount ∧ t.fxPkt = s.fxPkt ∧
      t.params = s.params ∧ t.queue = s.queue ∧ t.pins = s.pins ∧ t.srcMem = s.srcMem)

/-- 42_transmit.md R232, R233: TX_COMPLETE in every state: spurious from IDLE, the end of a fixed transfer or of a session, or the packing and
sending of up to CAP more packets from tx_pos on, where bytes are left (the invariant says there are).
`held` is the model's record of the transport's side: that clause is the model's choice (log 11), no rule's. -/
def Obligations.TxCompleteEndsOrResumesATransfer : Prop :=
  ∀ s : State,
    (s.txState = .idle →
      exec .txComplete s = .next { s with held := s.held.tail, out := some ⟨.ok, 0, [], none⟩ }) ∧
    (s.txState = .fixedInflight →
      exec .txComplete s = .next { s with txState := .idle, held := s.held.tail, out := some ⟨.ok, 0, [], none⟩ }) ∧
    (s.txState = .sxWaitLast →
      exec .txComplete s = .next { s with
        txState := .idle, txLastResult := .ok, held := s.held.tail, out := some ⟨.ok, 0, [], none⟩ }) ∧
    (s.txState = .sxWaitMid → s.txPos.toNat < s.txLen.toNat →
    ∃ t bytes, exec .txComplete s = .next t ∧
      t.txCable = s.txCable ∧ t.txLen = s.txLen ∧ t.txSrc = s.txSrc ∧
      t.txFill = min s.params.cap ((s.txLen.toNat - s.txPos.toNat + 2) / 3) ∧
      t.txPos.toNat = min s.txLen.toNat (s.txPos.toNat + 3 * s.params.cap) ∧
      bytes.length = 4 * t.txFill ∧
      (∀ a, a < 4 * t.txFill → t.txBuf.read a = bytes[a]?) ∧
      (∀ a, 4 * t.txFill ≤ a → t.txBuf.read a = s.txBuf.read a) ∧
      (if s.pins.sendOk = true then
        t.txState = (if s.txLen.toNat ≤ s.txPos.toNat + 3 * s.params.cap then .sxWaitLast else .sxWaitMid) ∧
        t.txLastResult = s.txLastResult ∧ t.held = s.held.tail ++ [⟨.txBuf, t.txFill⟩] ∧
        t.out = some ⟨.ok, 0, [], some bytes⟩
      else
        t.txState = .idle ∧ t.txLastResult = .transportFailure ∧ t.held = s.held.tail ∧
        t.out = some ⟨.transportFailure, 0, [], some bytes⟩) ∧
      t.rx = s.rx ∧ t.rxReservedCount = s.rxReservedCount ∧ t.rxDiscardCount = s.rxDiscardCount ∧ t.fxPkt = s.fxPkt ∧
      t.params = s.params ∧ t.queue = s.queue ∧ t.pins = s.pins ∧ t.srcMem = s.srcMem)

/-- 42_transmit.md R225, R226, R227: with the payload written in the bound source memory, the transfer an accepted TX_SYSEX or a
resuming TX_COMPLETE sends is the next CAP packets of the framed stream from the cursor on, or what is left of them. -/
def Obligations.FillSendsTheNextPacketsOfTheStream : Prop :=
  ∀ (payload : List Byte) (s : State), payload.length ≤ 2 ^ 32 - 3 →
    (∀ c : Nibble, c.toNat < s.params.nCables → s.txState = .idle →
      (∀ k, k < payload.length → s.srcMem.read (s.pins.src + k) = payload[k]?) →
      ∃ t o, exec (.txSysex c (BitVec.ofNat 32 payload.length)) s = .next t ∧ t.out = some o ∧
        o.send = some (packetBytes ((sysexPackets c (framedStream payload)).take s.params.cap))) ∧
    (∀ base : Nat, s.txState = .sxWaitMid → s.txLen.toNat = payload.length + 2 → s.txPos.toNat < s.txLen.toNat →
      s.txSrc = some base → (∀ k, k < payload.length → s.srcMem.read (base + k) = payload[k]?) →
      ∃ t o, exec .txComplete s = .next t ∧ t.out = some o ∧
        o.send = some (packetBytes
          ((sysexPackets s.txCable ((framedStream payload).drop s.txPos.toNat)).take s.params.cap)))

/-- The counts of a session and its flush boundary, 42_transmit.md section 4 (flush boundary, counts, final packet), over a run: TX_SYSEX and
T = ceil(P / CAP) completions, with every send accepted and the source left alone, send the P = ceil((N + 2) / 3) packets of the
framed stream in T transfers, every one but the last full, and end the session with OK.
That the inputs to come stand in the state is the model's (log 2), and so is how the source is bound and written (log 8). -/
def Obligations.ASessionSendsTheFramedStream : Prop :=
  ∀ (s : State) (i : StepInput) (js : List StepInput) (c : Nibble) (payload : List Byte),
    payload.length ≤ 2 ^ 32 - 3 → c.toNat < s.params.nCables → s.txState = .idle →
    s.queue = i :: js → decode i.cmd = .txSysex c (BitVec.ofNat 32 payload.length) →
    (∀ j ∈ js, decode j.cmd = .txComplete) → (∀ j ∈ i :: js, j.pins.sendOk = true ∧ j.hostWrites = []) →
    (∀ k, k < payload.length → s.srcMem.read (i.pins.src + k) = payload[k]?) →
    js.length = ((payload.length + 4) / 3 + s.params.cap - 1) / s.params.cap →
    (sysexPackets c (framedStream payload)).length = (payload.length + 4) / 3 ∧
    (trace (js.length + 1) s).map (·.send)
      = (List.range js.length).map (fun k => some (packetBytes
          (((sysexPackets c (framedStream payload)).drop (s.params.cap * k)).take s.params.cap))) ++ [none] ∧
    ∃ t, Host.Core.run core (js.length + 1) s = .next t ∧ t.txState = .idle ∧ t.txLastResult = .ok

/-- The sysex round trip, 42_transmit.md section 6, over two runs: the transfers of a session, fed packet by packet to the reassembler
of a block whose other inputs are anything but sysex packets of that cable and RESET, give back the payload and the total N + 2, where no
payload byte at an index 2 mod 3 is 0xF0.
That the inputs to come stand in the state is the model's (log 2), and so is how the source is bound and written (log 8). -/
def Obligations.SysexRoundTrip : Prop :=
  ∀ (s : State) (i : StepInput) (js : List StepInput) (r : State) (packets : List Packet) (c : Nibble)
      (payload : List Byte),
    payload.length ≤ 2 ^ 32 - 3 → c.toNat < s.params.nCables → s.txState = .idle →
    s.queue = i :: js → decode i.cmd = .txSysex c (BitVec.ofNat 32 payload.length) →
    (∀ j ∈ js, decode j.cmd = .txComplete) → (∀ j ∈ i :: js, j.pins.sendOk = true ∧ j.hostWrites = []) →
    (∀ k, k < payload.length → s.srcMem.read (i.pins.src + k) = payload[k]?) →
    js.length = ((payload.length + 4) / 3 + s.params.cap - 1) / s.params.cap →
    (∀ k, k < payload.length → k % 3 = 2 → payload[k]? ≠ some 0xF0) →
    c.toNat < r.params.nCables → (∀ x ∈ r.queue, decode x.cmd ≠ .reset) →
    sentBytes (trace (js.length + 1) s) = packetBytes packets →
    r.queue.filterMap (fun x => sysexPacket? c x.cmd) = packets.map Packet.toWord →
    ∃ (datas : List (List Byte)) (e : Word64),
      (eventsOf (trace r.queue.length r)).filter (Event.isSysexOf c)
        = .sysexStart c :: (datas.map (Event.sysexData c) ++ [.sysexEnd c (BitVec.ofNat 32 (payload.length + 2)) e]) ∧
      datas.flatten = payload

/-- 30_encoding.md section 1 and section 3, 20_memory.md section 3: every transfer of every step is 1 to CAP packets, each on a cable the
block has, with no CIN 0x0, 0x1 or 0xF, and zero past its meaningful bytes. -/
def Obligations.SentPacketsAreWellFormed : Prop :=
  ∀ (s t : State) (o : Outputs) (bytes : List Byte), s.Inv → step s = .next t → t.out = some o → o.send = some bytes →
    ∃ ps : List Packet, bytes = packetBytes ps ∧ 1 ≤ ps.length ∧ ps.length ≤ s.params.cap ∧
      ∀ p ∈ ps, p.decode.cable.toNat < s.params.nCables ∧
        p.decode.cin ≠ 0x0 ∧ p.decode.cin ≠ 0x1 ∧ p.decode.cin ≠ 0xF ∧
        [p.b1, p.b2, p.b3] = p.decode.d ++ List.replicate (3 - p.decode.n) 0

/-- The flow-control contract, 20_memory.md section 4: while tx_state says a transfer is in flight, no command writes its bytes, but a
TX_COMPLETE for it and a RESET (which leaves tx_buf unspecified; log 7). -/
def Obligations.BytesInFlightAreNotWritten : Prop :=
  ∀ (i : Instr) (s t : State), exec i s = .next t → i ≠ .reset →
    (s.txState = .fixedInflight → t.fxPkt = s.fxPkt) ∧
    (s.txState = .sxWaitLast → t.txBuf = s.txBuf) ∧
    (s.txState = .sxWaitMid → i ≠ .txComplete → t.txBuf = s.txBuf) ∧
    (s.txState ≠ .idle → i ≠ .txComplete → t.txState = s.txState)

/-- 20_memory.md section 6: a receive command does the same whatever the transmit state is and leaves it as it is, and a transmit command
the same for the receive state. -/
def Obligations.ReceiveAndTransmitAreDisjoint : Prop :=
  ∀ (i : Instr) (s t : State), exec i s = .next t →
    (pathOf i = .receive →
      ∀ (a : TxState) (b : Nibble) (l p : Word32) (n : Nat) (m : Memory) (q : Result) (x : Packet) (z : Option Nat),
        exec i { s with
            txState := a, txCable := b, txLen := l, txPos := p, txFill := n, txBuf := m, txLastResult := q, fxPkt := x
            txSrc := z }
          = .next { t with
            txState := a, txCable := b, txLen := l, txPos := p, txFill := n, txBuf := m, txLastResult := q, fxPkt := x
            txSrc := z }) ∧
    (pathOf i = .transmit →
      ∀ (v : Vector RxSession 16) (a b : Word32),
        exec i { s with rx := v, rxReservedCount := a, rxDiscardCount := b }
          = .next { t with rx := v, rxReservedCount := a, rxDiscardCount := b })

/-- 43_control.md R260, 10_state.md R53 (with the encodings of R32, R33 and R40), R54 (EP_MAX = 4 * CAP, 00_scope.md R14) and the value column of R52:
READ returns OK and the value of the register map, and changes no state. -/
def Obligations.ReadReturnsTheRegister : Prop :=
  ∀ (idx : Byte) (s : State), ∃ v : Word32,
    exec (.read idx) s = .next { s with out := some ⟨.ok, v, [], none⟩ } ∧
    (idx = 0x00 →
      (v.extractLsb' 0 2).toNat = (match s.txState with
        | .idle => 0 | .fixedInflight => 1 | .sxWaitMid => 2 | .sxWaitLast => 3) ∧
      v.getLsbD 2 = decide (s.txState = .sxWaitMid ∨ s.txState = .sxWaitLast) ∧ v.getLsbD 3 = false ∧
      (v.extractLsb' 4 2).toNat = (match s.txLastResult with
        | .ok => 0 | .invalidMessage => 1 | .sessionBusy => 2 | .transportFailure => 3) ∧
      v.extractLsb' 6 2 = 0 ∧ v.extractLsb' 8 4 = s.txCable ∧ v.extractLsb' 12 20 = 0) ∧
    (idx = 0x01 → v = s.txLen) ∧ (idx = 0x02 → v = s.txPos) ∧ (idx = 0x03 → v = BitVec.ofNat 32 s.txFill) ∧
    (idx = 0x04 → v = s.rxReservedCount) ∧ (idx = 0x05 → v = s.rxDiscardCount) ∧
    (idx = 0x06 → v.extractLsb' 16 16 = 0 ∧ ∀ c : Nibble, v.getLsbD c.toNat =
      decide (c.toNat < s.params.nCables ∧ (s.rxGet c).state = .receiving)) ∧
    (idx = 0x07 → (v.extractLsb' 0 8).toNat = s.params.nCables ∧ (v.extractLsb' 8 16).toNat = 4 * s.params.cap ∧
      (v.extractLsb' 24 8).toNat = s.params.tsW) ∧
    (idx = 0x08 → byteAt0 v = s.fxPkt.b0 ∧ byteAt1 v = s.fxPkt.b1 ∧ byteAt2 v = s.fxPkt.b2 ∧ byteAt3 v = s.fxPkt.b3) ∧
    (∀ c : Nibble, idx.toNat = 0x10 + c.toNat → v = if c.toNat < s.params.nCables then (s.rxGet c).count else 0) ∧
    (∀ c : Nibble, idx.toNat = 0x20 + c.toNat →
      v.toNat = if c.toNat < s.params.nCables then (s.rxGet c).start.toNat % 2 ^ 32 else 0) ∧
    ((0x09 ≤ idx ∧ idx ≤ 0x0F) ∨ 0x30 ≤ idx → v = 0)

/-- 43_control.md R262, 70_reset_and_hazards.md R321: RESET from any state sets every register to its reset value, answers OK with no event
and no send, and leaves the source memory and what the transport holds alone. tx_buf is unspecified after it and not stated. -/
def Obligations.ResetCommandRestoresTheResetValues : Prop :=
  ∀ s : State, ∃ t, exec .reset s = .next t ∧ t.out = some ⟨.ok, 0, [], none⟩ ∧
    t.txState = .idle ∧ t.txCable = 0 ∧ t.txLen = 0 ∧ t.txPos = 0 ∧ t.txFill = 0 ∧ t.txLastResult = .ok ∧
    t.fxPkt = ⟨0, 0, 0, 0⟩ ∧ t.txSrc = none ∧ (∀ c : Nibble, t.rxGet c = ⟨.idle, 0, 0⟩) ∧
    t.rxReservedCount = 0 ∧ t.rxDiscardCount = 0 ∧
    t.srcMem = s.srcMem ∧ t.held = s.held ∧ t.params = s.params ∧ t.queue = s.queue ∧ t.pins = s.pins

/-- 60_exceptions.md section 1 (results by command): what each command can return. rdata is 0 but for READ. -/
def Obligations.ResultsAreThoseOfTheCommand : Prop :=
  ∀ (i : Instr) (s t : State) (o : Outputs), exec i s = .next t → t.out = some o →
    (pathOf i = .receive → o.result = .ok) ∧
    (i = .txComplete → o.result = .ok ∨ (o.result = .transportFailure ∧ s.txState = .sxWaitMid)) ∧
    (pathOf i = .control → (i = .reset ∨ ∃ idx, i = .read idx) ∨ o.result = .invalidMessage) ∧
    (i = .reset ∨ (∃ idx, i = .read idx) → o.result = .ok) ∧
    ((∀ idx, i ≠ .read idx) → o.rdata = 0)

/-- 60_exceptions.md R284: a command returns TransportFailure exactly when it issued a Send and send_ok = 0. It is then a TX_FIXED or TX_SYSEX
from IDLE, or a TX_COMPLETE from SX_WAIT_MID, and leaves tx_state IDLE; a sysex command leaves tx_last_result = 3, a fixed one the packet in
fx_pkt. -/
def Obligations.TransportFailureMeansARefusedSend : Prop :=
  ∀ (i : Instr) (s t : State) (o : Outputs), exec i s = .next t → t.out = some o →
    (o.result = .transportFailure ↔ o.send.isSome = true ∧ s.pins.sendOk = false) ∧
    (o.result = .transportFailure → pathOf i = .transmit ∧ t.txState = .idle ∧
      (if i = .txComplete then s.txState = .sxWaitMid else s.txState = .idle) ∧
      (i = .txComplete ∨ (∃ c n, i = .txSysex c n) → t.txLastResult = .transportFailure ∧
        o.send = t.txBuf.readBytes 0 (4 * t.txFill)) ∧
      (i ≠ .txComplete → (∀ c n, i ≠ .txSysex c n) → o.send = some t.fxPkt.bytes ∧
        t = { s with fxPkt := t.fxPkt, out := some o }))

/-- 60_exceptions.md R289, R281, R282: a command that returns InvalidMessage or SessionBusy writes no state, emits no event and sends
nothing. -/
def Obligations.RefusedCommandsWriteNothing : Prop :=
  ∀ (i : Instr) (s t : State) (o : Outputs), exec i s = .next t → t.out = some o →
    o.result = .invalidMessage ∨ o.result = .sessionBusy →
    o.events = [] ∧ o.send = none ∧ t = { s with out := some o }

/-- 30_encoding.md R128, 70_reset_and_hazards.md section 3: at most three events; the byte list of a
Message or SysexData has at most three bytes, and at least one by 41_receive.md R183 and R185 to R188; only receive commands emit
events and only transmit commands send, so no step has both. -/
def Obligations.OutputsHaveTheirShape : Prop :=
  ∀ (i : Instr) (s t : State), exec i s = .next t → ∃ o, t.out = some o ∧
    o.events.length ≤ 3 ∧
    (∀ c d, Event.message c d ∈ o.events ∨ Event.sysexData c d ∈ o.events → 1 ≤ d.length ∧ d.length ≤ 3) ∧
    (pathOf i ≠ .receive → o.events = []) ∧ (pathOf i ≠ .transmit → o.send = none)

/-- 20_memory.md R70, R76, 10_state.md R50: no command writes the host source memory, the parameters, or the inputs of the step. -/
def Obligations.SourceMemoryAndInputsAreNotWritten : Prop :=
  ∀ (i : Instr) (s t : State), exec i s = .next t →
    t.srcMem = s.srcMem ∧ t.params = s.params ∧ t.queue = s.queue ∧ t.pins = s.pins

/-- 10_state.md R40, 60_exceptions.md R286: but for RESET, tx_last_result changes only when a session ends: OK at the completion of its last
transfer, TransportFailure when a send of it is refused. -/
def Obligations.LastResultIsWrittenAtASessionsEnd : Prop :=
  ∀ (i : Instr) (s t : State), exec i s = .next t → i ≠ .reset →
    t.txLastResult = s.txLastResult ∨
    (i = .txComplete ∧ s.txState = .sxWaitLast ∧ t.txState = .idle ∧ t.txLastResult = .ok) ∨
    ((i = .txComplete ∧ s.txState = .sxWaitMid ∨ ∃ c n, i = .txSysex c n) ∧ t.txState = .idle ∧
      t.txLastResult = .transportFailure ∧ ∃ bs, t.out = some ⟨.transportFailure, 0, [], some bs⟩)

/-- 10_state.md section 4, 60_exceptions.md section 4: where the transport completes only what it holds and the host does not RESET over a
transfer in flight, the block and the transport agree on what is in flight, so that at most one transfer is. `held` is the model's record
of the transport's side (log 11). -/
def Obligations.DutifulStepsKeepTheTransportInAgreement : Prop :=
  ∀ s t : State, s.TransportAgrees → s.Dutiful → step s = .next t → t.TransportAgrees ∧ t.held.length ≤ 1

/-- The numbers of what a step hands out: the result codes of 60_exceptions.md section 1 and the event kinds of
30_encoding.md section 5. -/
def Obligations.ResultAndEventNumbers : Prop :=
  Result.ok.code = 0 ∧ Result.invalidMessage.code = 1 ∧ Result.sessionBusy.code = 2 ∧ Result.transportFailure.code = 3 ∧
  ∀ (c : Nibble) (bytes : List Byte) (total : Word32) (elapsed : Word64),
    (Event.message c bytes).code = 0 ∧ (Event.sysexStart c).code = 1 ∧ (Event.sysexData c bytes).code = 2 ∧
    (Event.sysexEnd c total elapsed).code = 3

/-- 10_state.md section 2: busy and tx_occupied, derived from tx_state. -/
def Obligations.BusyAndOccupiedFollowTxState : Prop :=
  ∀ s : State,
    (s.busy = true ↔ s.txState = .sxWaitMid ∨ s.txState = .sxWaitLast) ∧
    (s.txOccupied = true ↔ s.txState = .fixedInflight ∨ s.txState = .sxWaitMid ∨ s.txState = .sxWaitLast)

/-- 00_scope.md section 5: the parameters take every legal value and no other, and EP_MAX = 4 * CAP. That they stand in the
state is the model's (log 1). -/
def Obligations.ParametersTakeTheLegalValues : Prop :=
  (∀ p : Params, 1 ≤ p.nCables ∧ p.nCables ≤ 16 ∧ p.epMax = 4 * p.cap ∧ 4 ≤ p.epMax ∧ p.epMax ≤ 1024 ∧
    1 ≤ p.tsW ∧ p.tsW ≤ 64) ∧
  ∀ n cap w u : Nat, 1 ≤ n → n ≤ 16 → 4 ≤ 4 * cap → 4 * cap ≤ 1024 → 1 ≤ w → w ≤ 64 →
    ∃ p : Params, p.nCables = n ∧ p.epMax = 4 * cap ∧ p.tsW = w ∧ p.timeUnit = u
end

