-- ==== Sys2Proof/Laws/Encoding.lean ====
section
/-! SUPPORT. The fields of a packed word are what was packed, and a word under a table mask keeps the fields the
mask covers. -/

namespace Sys2Proof

/-! ## Fields of a command word -/

section
variable (op c : Nibble) (l : BitVec 2) (a : Word32)

@[simp] theorem fieldOp_cmdWord : fieldOp (cmdWord op c l a) = op := by
  ext i h
  simp [fieldOp, cmdWord]
  grind

@[simp] theorem fieldCable_cmdWord : fieldCable (cmdWord op c l a) = c := by
  ext i h
  simp [fieldCable, cmdWord]
  grind

@[simp] theorem fieldLen_cmdWord : fieldLen (cmdWord op c l a) = l := by
  ext i h
  simp [fieldLen, cmdWord]
  grind

@[simp] theorem fieldArg_cmdWord : fieldArg (cmdWord op c l a) = a := by
  ext i h
  simp [fieldArg, cmdWord]
  grind

end

/-! ## Bytes of ARG and of a packet -/

section
variable (a b c d : Byte)

@[simp] theorem byteAt0_append : byteAt0 (a ++ b ++ c ++ d) = a := by
  ext i h
  simp [byteAt0]
  grind

@[simp] theorem byteAt1_append : byteAt1 (a ++ b ++ c ++ d) = b := by
  ext i h
  simp [byteAt1]
  grind

@[simp] theorem byteAt2_append : byteAt2 (a ++ b ++ c ++ d) = c := by
  ext i h
  simp [byteAt2]
  grind

@[simp] theorem byteAt3_append : byteAt3 (a ++ b ++ c ++ d) = d := by
  ext i h
  simp [byteAt3]
  grind

end

section
variable (c n : Nibble) (b1 b2 b3 : Byte)

@[simp] theorem pktCable_pktWord : pktCable (pktWord c n b1 b2 b3) = c := by
  ext i h
  simp [pktCable, pktWord]
  grind

@[simp] theorem pktCin_pktWord : pktCin (pktWord c n b1 b2 b3) = n := by
  ext i h
  simp [pktCin, pktWord]
  grind

@[simp] theorem byteAt1_pktWord : byteAt1 (pktWord c n b1 b2 b3) = b1 := by
  ext i h
  simp [byteAt1, pktWord]
  grind

@[simp] theorem byteAt2_pktWord : byteAt2 (pktWord c n b1 b2 b3) = b2 := by
  ext i h
  simp [byteAt2, pktWord]
  grind

@[simp] theorem byteAt3_pktWord : byteAt3 (pktWord c n b1 b2 b3) = b3 := by
  ext i h
  simp [byteAt3, pktWord]
  grind

@[simp] theorem byteAt0_pktWord : byteAt0 (pktWord c n b1 b2 b3) = c ++ n := by
  ext i h
  simp [byteAt0, pktWord]
  grind

end

/-- A packet is its fields. -/
theorem pktWord_fields (p : Word32) : pktWord (pktCable p) (pktCin p) (byteAt1 p) (byteAt2 p) (byteAt3 p) = p := by
  ext i h
  simp [pktWord, pktCable, pktCin, byteAt1, byteAt2, byteAt3]
  grind

/-- ARG is its bytes. -/
theorem word_bytes (p : Word32) : byteAt0 p ++ byteAt1 p ++ byteAt2 p ++ byteAt3 p = p := by
  ext i h
  simp [byteAt0, byteAt1, byteAt2, byteAt3]
  grind

/-- The high nibble of byte 0 is the cable, the low one the CIN (30_encoding.md R101). -/
theorem nibbles_byteAt0 (p : Word32) :
    (byteAt0 p).extractLsb' 4 4 = pktCable p ∧ (byteAt0 p).extractLsb' 0 4 = pktCin p := by
  constructor <;> ext i h <;> simp [byteAt0, pktCable, pktCin] <;> grind

@[simp] theorem nibbles_append (c n : Nibble) :
    (c ++ n : Byte).extractLsb' 4 4 = c ∧ (c ++ n : Byte).extractLsb' 0 4 = n := by
  constructor <;> ext i h <;> simp <;> grind

/-! ## Words under a mask of the opcode table -/

theorem getLsbD_app {m n : Nat} (a : BitVec m) (b : BitVec n) (i : Nat) :
    (a ++ b).getLsbD i = if i < n then b.getLsbD i else a.getLsbD (i - n) :=
  BitVec.getLsbD_append

/-- A word under the mask of an OP row keeps OP. -/
theorem and_op (w : Word64) : w &&& 0xF000000000000000 = fieldOp w ++ (0 : BitVec 60) := by
  apply BitVec.eq_of_getLsbD_eq
  intro i hi
  rw [BitVec.getLsbD_and, getLsbD_app (m := 4) (n := 60)]
  simp only [fieldOp, BitVec.getLsbD_extractLsb']
  interval_cases i <;> simp

/-- A word under the mask of a status-class row keeps OP and what the row's masks keep of LEN and of the first byte. -/
theorem and_fixed (w : Word64) (lm : BitVec 2) (bm : Byte) :
    w &&& ((0xF : Nibble) ++ (0 : BitVec 26) ++ lm ++ bm ++ (0 : BitVec 24))
      = fieldOp w ++ (0 : BitVec 26) ++ (fieldLen w &&& lm) ++ (byteAt0 (fieldArg w) &&& bm) ++ (0 : BitVec 24) := by
  apply BitVec.eq_of_getLsbD_eq
  intro i hi
  rw [BitVec.getLsbD_and]
  simp only [getLsbD_app (m := 4) (n := 26), getLsbD_app (m := 30) (n := 2), getLsbD_app (m := 32) (n := 8),
    getLsbD_app (m := 40) (n := 24), fieldOp, fieldLen, byteAt0, fieldArg, BitVec.getLsbD_and,
    BitVec.getLsbD_extractLsb']
  interval_cases i <;> simp

/-- A packet under the mask of its row keeps the CIN and what the row's mask keeps of byte 1. -/
theorem and_pkt (p : Word32) (bm : Byte) :
    p &&& ((0 : Nibble) ++ (0xF : Nibble) ++ bm ++ (0 : BitVec 16))
      = (0 : Nibble) ++ pktCin p ++ (byteAt1 p &&& bm) ++ (0 : BitVec 16) := by
  apply BitVec.eq_of_getLsbD_eq
  intro i hi
  rw [BitVec.getLsbD_and]
  simp only [getLsbD_app (m := 4) (n := 4), getLsbD_app (m := 8) (n := 8), getLsbD_app (m := 16) (n := 16), pktCin,
    byteAt1, BitVec.getLsbD_and, BitVec.getLsbD_extractLsb']
  interval_cases i <;> simp

/-- When a word fits an OP row. -/
theorem fits_op_iff (w : Word64) (op : Nibble) :
    w &&& 0xF000000000000000 = op ++ (0 : BitVec 60) ↔ fieldOp w = op := by
  rw [and_op]
  have ho (a : Nibble) : (a ++ (0 : BitVec 60)).extractLsb' 60 4 = a := by
    ext i h; simp; grind
  constructor
  · intro h
    have h1 := congrArg (fun x : BitVec (4 + 60) => x.extractLsb' 60 4) h
    simpa only [ho] using h1
  · rintro rfl; rfl

/-- When a word fits a status-class row. -/
theorem fits_fixed_iff (w : Word64) (lm lp : BitVec 2) (bm bp : Byte) :
    w &&& ((0xF : Nibble) ++ (0 : BitVec 26) ++ lm ++ bm ++ (0 : BitVec 24))
        = (2 : Nibble) ++ (0 : BitVec 26) ++ lp ++ bp ++ (0 : BitVec 24)
      ↔ fieldOp w = 2 ∧ fieldLen w &&& lm = lp ∧ byteAt0 (fieldArg w) &&& bm = bp := by
  rw [and_fixed]
  have ho (a : Nibble) (l : BitVec 2) (b : Byte) :
      (a ++ (0 : BitVec 26) ++ l ++ b ++ (0 : BitVec 24)).extractLsb' 60 4 = a := by
    ext i h; simp; grind
  have hl (a : Nibble) (l : BitVec 2) (b : Byte) :
      (a ++ (0 : BitVec 26) ++ l ++ b ++ (0 : BitVec 24)).extractLsb' 32 2 = l := by
    ext i h; simp; grind
  have hb (a : Nibble) (l : BitVec 2) (b : Byte) :
      (a ++ (0 : BitVec 26) ++ l ++ b ++ (0 : BitVec 24)).extractLsb' 24 8 = b := by
    ext i h; simp; grind
  constructor
  · intro h
    have h1 := congrArg (fun x : BitVec (4 + 26 + 2 + 8 + 24) => x.extractLsb' 60 4) h
    have h2 := congrArg (fun x : BitVec (4 + 26 + 2 + 8 + 24) => x.extractLsb' 32 2) h
    have h3 := congrArg (fun x : BitVec (4 + 26 + 2 + 8 + 24) => x.extractLsb' 24 8) h
    simp only [ho, hl, hb] at h1 h2 h3
    exact ⟨h1, h2, h3⟩
  · rintro ⟨h1, h2, h3⟩
    rw [h1, h2, h3]

/-- When a packet fits a row of the packet table. -/
theorem fits_pkt_iff (p : Word32) (n : Nibble) (bm bp : Byte) :
    p &&& ((0 : Nibble) ++ (0xF : Nibble) ++ bm ++ (0 : BitVec 16)) = (0 : Nibble) ++ n ++ bp ++ (0 : BitVec 16)
      ↔ pktCin p = n ∧ byteAt1 p &&& bm = bp := by
  rw [and_pkt]
  have hn (n : Nibble) (b : Byte) : ((0 : Nibble) ++ n ++ b ++ (0 : BitVec 16)).extractLsb' 24 4 = n := by
    ext i h; simp; grind
  have hb (n : Nibble) (b : Byte) : ((0 : Nibble) ++ n ++ b ++ (0 : BitVec 16)).extractLsb' 16 8 = b := by
    ext i h; simp; grind
  constructor
  · intro h
    have h1 := congrArg (fun x : BitVec (4 + 4 + 8 + 16) => x.extractLsb' 24 4) h
    have h2 := congrArg (fun x : BitVec (4 + 4 + 8 + 16) => x.extractLsb' 16 8) h
    simp only [hn, hb] at h1 h2
    exact ⟨h1, h2⟩
  · rintro ⟨h1, h2⟩
    rw [h1, h2]

/-- A word whose OP is the row's fits an OP row. -/
theorem OpRow.fits_op {r : OpRow 64} {w : Word64} (op : Nibble) (hm : r.mask = 0xF000000000000000)
    (hp : r.pattern = op ++ (0 : BitVec 60)) (h : fieldOp w = op) : r.fits w = true := by
  rw [OpRow.fits, beq_iff_eq, hm, hp]
  exact (fits_op_iff w op).2 h

/-- A TX_FIXED word whose LEN and first byte the row's masks keep as its pattern has them fits a status-class row. -/
theorem OpRow.fits_fixed {r : OpRow 64} {c : Nibble} {l : BitVec 2} {b0 b1 b2 : Byte} (lm lp : BitVec 2) (bm bp : Byte)
    (hm : r.mask = (0xF : Nibble) ++ (0 : BitVec 26) ++ lm ++ bm ++ (0 : BitVec 24))
    (hp : r.pattern = (2 : Nibble) ++ (0 : BitVec 26) ++ lp ++ bp ++ (0 : BitVec 24))
    (hl : l &&& lm = lp) (hb : b0 &&& bm = bp) : r.fits (fixedWord c l b0 b1 b2) = true := by
  rw [OpRow.fits, beq_iff_eq, hm, hp]
  exact (fits_fixed_iff _ lm lp bm bp).2 ⟨by simp [fixedWord], by simpa [fixedWord] using hl, by simpa [fixedWord] using hb⟩

/-- A packet with the row's CIN, and with byte 1 as the row's mask and pattern have it, fits a packet row. -/
theorem OpRow.fits_pkt {r : OpRow 32} {c : Nibble} {b1 b2 b3 : Byte} (n : Nibble) (bm bp : Byte)
    (hm : r.mask = (0 : Nibble) ++ (0xF : Nibble) ++ bm ++ (0 : BitVec 16))
    (hp : r.pattern = (0 : Nibble) ++ n ++ bp ++ (0 : BitVec 16))
    (hb : b1 &&& bm = bp) : r.fits (pktWord c n b1 b2 b3) = true := by
  rw [OpRow.fits, beq_iff_eq, hm, hp]
  exact (fits_pkt_iff _ n bm bp).2 ⟨by simp, by simpa using hb⟩

/-- The class of a channel-voice byte is its high nibble under the row's mask. -/
theorem and_of_inClass {hi : Nibble} {b : Byte} (h : inClass hi b = true) : b &&& 0xF0 = hi ++ (0 : Nibble) := by
  have e : ∀ b : Byte, b &&& 0xF0 = b.extractLsb' 4 4 ++ (0 : Nibble) := by decide
  rw [e, beq_iff_eq.1 h]

/-! ## Case splits -/

theorem nibble_cases : ∀ n : Nibble, n = 0x0 ∨ n = 0x1 ∨ n = 0x2 ∨ n = 0x3 ∨ n = 0x4 ∨ n = 0x5 ∨ n = 0x6 ∨ n = 0x7 ∨
    n = 0x8 ∨ n = 0x9 ∨ n = 0xA ∨ n = 0xB ∨ n = 0xC ∨ n = 0xD ∨ n = 0xE ∨ n = 0xF := by decide

/-- Every first byte is a data byte, of a channel-voice class, one of 0xF0 to 0xF7, or a real-time byte. -/
theorem firstByte_cases (b : Byte) : b < 0x80 ∨ b.extractLsb' 4 4 = 0x8 ∨ b.extractLsb' 4 4 = 0x9 ∨
    b.extractLsb' 4 4 = 0xA ∨ b.extractLsb' 4 4 = 0xB ∨ b.extractLsb' 4 4 = 0xC ∨ b.extractLsb' 4 4 = 0xD ∨
    b.extractLsb' 4 4 = 0xE ∨ b = 0xF0 ∨ b = 0xF1 ∨ b = 0xF2 ∨ b = 0xF3 ∨ b = 0xF4 ∨ b = 0xF5 ∨ b = 0xF6 ∨
    b = 0xF7 ∨ 0xF8 ≤ b := by
  revert b; decide

theorem not_data_of_nibble {hi : Nibble} {b : Byte} (h8 : 8 ≤ hi.toNat) (h : b.extractLsb' 4 4 = hi) : ¬b < 0x80 := by
  subst h; revert b; decide

theorem realtime_ne {b : Byte} (h : 0xF8 ≤ b) :
    ¬b < 0x80 ∧ b ≠ 0xF0 ∧ b ≠ 0xF1 ∧ b ≠ 0xF2 ∧ b ≠ 0xF3 ∧ b ≠ 0xF6 ∧ b ≠ 0xF7 ∧ ¬b < 0xF8 ∧
      b.extractLsb' 4 4 = 0xF := by
  revert b; decide

/-- The lengths of the classes that hold more than one first byte. -/
theorem statusLens_class (b : Byte) :
    (b.extractLsb' 4 4 = 0x8 → statusLens b = [3] ∧ invalidFirst b = false) ∧
    (b.extractLsb' 4 4 = 0x9 → statusLens b = [3] ∧ invalidFirst b = false) ∧
    (b.extractLsb' 4 4 = 0xA → statusLens b = [3] ∧ invalidFirst b = false) ∧
    (b.extractLsb' 4 4 = 0xB → statusLens b = [3] ∧ invalidFirst b = false) ∧
    (b.extractLsb' 4 4 = 0xC → statusLens b = [2] ∧ invalidFirst b = false) ∧
    (b.extractLsb' 4 4 = 0xD → statusLens b = [2] ∧ invalidFirst b = false) ∧
    (b.extractLsb' 4 4 = 0xE → statusLens b = [3] ∧ invalidFirst b = false) ∧
    (0xF8 ≤ b → statusLens b = [1] ∧ invalidFirst b = false) := by
  revert b; decide

/-- What a TX_FIXED word decodes to, in the classes that hold more than one first byte. -/
theorem decodeFixed_class (c : Nibble) (len : BitVec 2) (b0 b1 b2 : Byte) :
    (b0.extractLsb' 4 4 = 0x8 →
      decodeFixed c len b0 b1 b2 = if len = 3 then .stNoteOff c b0 b1 b2 else .txFixed c len b0 b1 b2) ∧
    (b0.extractLsb' 4 4 = 0x9 →
      decodeFixed c len b0 b1 b2 = if len = 3 then .stNoteOn c b0 b1 b2 else .txFixed c len b0 b1 b2) ∧
    (b0.extractLsb' 4 4 = 0xA →
      decodeFixed c len b0 b1 b2 = if len = 3 then .stPolyPressure c b0 b1 b2 else .txFixed c len b0 b1 b2) ∧
    (b0.extractLsb' 4 4 = 0xB →
      decodeFixed c len b0 b1 b2 = if len = 3 then .stControlChange c b0 b1 b2 else .txFixed c len b0 b1 b2) ∧
    (b0.extractLsb' 4 4 = 0xC →
      decodeFixed c len b0 b1 b2 = if len = 2 then .stProgramChange c b0 b1 else .txFixed c len b0 b1 b2) ∧
    (b0.extractLsb' 4 4 = 0xD →
      decodeFixed c len b0 b1 b2 = if len = 2 then .stChannelPressure c b0 b1 else .txFixed c len b0 b1 b2) ∧
    (b0.extractLsb' 4 4 = 0xE →
      decodeFixed c len b0 b1 b2 = if len = 3 then .stPitchBend c b0 b1 b2 else .txFixed c len b0 b1 b2) ∧
    (0xF8 ≤ b0 →
      decodeFixed c len b0 b1 b2 = if len = 1 then .stRealtime c b0 else .txFixed c len b0 b1 b2) := by
  refine ⟨?_, ?_, ?_, ?_, ?_, ?_, ?_, ?_⟩
  all_goals intro h
  case refine_8 =>
    obtain ⟨h1, h2, h3, h4, h5, h6, h7, h8, h9⟩ := realtime_ne h
    simp only [decodeFixed, h1, h2, h3, h4, h5, h6, h7, h8, h9]
    rfl
  all_goals
    simp only [decodeFixed, if_neg (not_data_of_nibble (by decide) h), h]
    rfl

theorem OpRow.fits_fixed_iff {r : OpRow 64} (w : Word64) (lm lp : BitVec 2) (bm bp : Byte)
    (hm : r.mask = (0xF : Nibble) ++ (0 : BitVec 26) ++ lm ++ bm ++ (0 : BitVec 24))
    (hp : r.pattern = (2 : Nibble) ++ (0 : BitVec 26) ++ lp ++ bp ++ (0 : BitVec 24)) :
    r.fits w = true ↔ fieldOp w = 2 ∧ fieldLen w &&& lm = lp ∧ byteAt0 (fieldArg w) &&& bm = bp := by
  rw [OpRow.fits, beq_iff_eq, hm, hp]
  exact Sys2Proof.fits_fixed_iff w lm lp bm bp

theorem OpRow.fits_op_iff {r : OpRow 64} (w : Word64) (op : Nibble) (hm : r.mask = 0xF000000000000000)
    (hp : r.pattern = op ++ (0 : BitVec 60)) : r.fits w = true ↔ fieldOp w = op := by
  rw [OpRow.fits, beq_iff_eq, hm, hp]
  exact Sys2Proof.fits_op_iff w op

theorem OpRow.fits_pkt_iff {r : OpRow 32} (p : Word32) (n : Nibble) (bm bp : Byte)
    (hm : r.mask = (0 : Nibble) ++ (0xF : Nibble) ++ bm ++ (0 : BitVec 16))
    (hp : r.pattern = (0 : Nibble) ++ n ++ bp ++ (0 : BitVec 16)) :
    r.fits p = true ↔ pktCin p = n ∧ byteAt1 p &&& bm = bp := by
  rw [OpRow.fits, beq_iff_eq, hm, hp]
  exact Sys2Proof.fits_pkt_iff p n bm bp

/-! ## Table words -/

/-- A 64-bit row value is the command word of that value. -/
theorem decodeTableWord_64 (w : Nat) : decodeTableWord 64 w = some (decodeWord (BitVec.ofNat 64 w)) := by
  simp only [decodeTableWord, rowBytes, show ¬64 ≤ 32 by decide, if_false, layOut, decodeBytes]
  congr 1
  congr 1
  apply BitVec.eq_of_getLsbD_eq
  intro i hi
  simp only [BitVec.getLsbD_append, BitVec.getLsbD_ofNat, Nat.testBit_shiftRight]
  interval_cases i <;> simp

/-- A 32-bit row value is the packet of that value. -/
theorem decodeTableWord_32 (w : Nat) : decodeTableWord 32 w = some (decodePacket (BitVec.ofNat 32 w)) := by
  simp only [decodeTableWord, rowBytes, show 32 ≤ 32 by decide, if_true, layOut, decodeBytes]
  congr 1
  congr 1
  apply BitVec.eq_of_getLsbD_eq
  intro i hi
  simp only [BitVec.getLsbD_append, BitVec.getLsbD_ofNat, Nat.testBit_shiftRight]
  interval_cases i <;> simp

end Sys2Proof
end

