-- ==== Sys2Proof/Laws/State.lean ====
section
/-! SUPPORT. One lemma per field per update of State, so that no proof unfolds a record update, and what an answer is. -/

namespace Sys2Proof.Machine

@[simp] theorem State.answer_txState (s : State) (o : Outputs) : (s.answer o).txState = s.txState := rfl
@[simp] theorem State.answer_txCable (s : State) (o : Outputs) : (s.answer o).txCable = s.txCable := rfl
@[simp] theorem State.answer_txLen (s : State) (o : Outputs) : (s.answer o).txLen = s.txLen := rfl
@[simp] theorem State.answer_txPos (s : State) (o : Outputs) : (s.answer o).txPos = s.txPos := rfl
@[simp] theorem State.answer_txFill (s : State) (o : Outputs) : (s.answer o).txFill = s.txFill := rfl
@[simp] theorem State.answer_txBuf (s : State) (o : Outputs) : (s.answer o).txBuf = s.txBuf := rfl
@[simp] theorem State.answer_txLastResult (s : State) (o : Outputs) : (s.answer o).txLastResult = s.txLastResult := rfl
@[simp] theorem State.answer_fxPkt (s : State) (o : Outputs) : (s.answer o).fxPkt = s.fxPkt := rfl
@[simp] theorem State.answer_txSrc (s : State) (o : Outputs) : (s.answer o).txSrc = s.txSrc := rfl
@[simp] theorem State.answer_rx (s : State) (o : Outputs) : (s.answer o).rx = s.rx := rfl
@[simp] theorem State.answer_rxReservedCount (s : State) (o : Outputs) : (s.answer o).rxReservedCount = s.rxReservedCount := rfl
@[simp] theorem State.answer_rxDiscardCount (s : State) (o : Outputs) : (s.answer o).rxDiscardCount = s.rxDiscardCount := rfl
@[simp] theorem State.answer_params (s : State) (o : Outputs) : (s.answer o).params = s.params := rfl
@[simp] theorem State.answer_queue (s : State) (o : Outputs) : (s.answer o).queue = s.queue := rfl
@[simp] theorem State.answer_pins (s : State) (o : Outputs) : (s.answer o).pins = s.pins := rfl
@[simp] theorem State.answer_out (s : State) (o : Outputs) : (s.answer o).out = some o := rfl
@[simp] theorem State.answer_held (s : State) (o : Outputs) : (s.answer o).held = s.held := rfl
@[simp] theorem State.answer_srcMem (s : State) (o : Outputs) : (s.answer o).srcMem = s.srcMem := rfl
@[simp] theorem State.answer_draws (s : State) (o : Outputs) : (s.answer o).draws = s.draws := rfl

@[simp] theorem State.rxSet_txState (s : State) (c : Nibble) (r : RxSession) : (s.rxSet c r).txState = s.txState := rfl
@[simp] theorem State.rxSet_txCable (s : State) (c : Nibble) (r : RxSession) : (s.rxSet c r).txCable = s.txCable := rfl
@[simp] theorem State.rxSet_txLen (s : State) (c : Nibble) (r : RxSession) : (s.rxSet c r).txLen = s.txLen := rfl
@[simp] theorem State.rxSet_txPos (s : State) (c : Nibble) (r : RxSession) : (s.rxSet c r).txPos = s.txPos := rfl
@[simp] theorem State.rxSet_txFill (s : State) (c : Nibble) (r : RxSession) : (s.rxSet c r).txFill = s.txFill := rfl
@[simp] theorem State.rxSet_txBuf (s : State) (c : Nibble) (r : RxSession) : (s.rxSet c r).txBuf = s.txBuf := rfl
@[simp] theorem State.rxSet_txLastResult (s : State) (c : Nibble) (r : RxSession) : (s.rxSet c r).txLastResult = s.txLastResult := rfl
@[simp] theorem State.rxSet_fxPkt (s : State) (c : Nibble) (r : RxSession) : (s.rxSet c r).fxPkt = s.fxPkt := rfl
@[simp] theorem State.rxSet_txSrc (s : State) (c : Nibble) (r : RxSession) : (s.rxSet c r).txSrc = s.txSrc := rfl
@[simp] theorem State.rxSet_rx (s : State) (c : Nibble) (r : RxSession) : (s.rxSet c r).rx = s.rx.set c.toNat r := rfl
@[simp] theorem State.rxSet_rxReservedCount (s : State) (c : Nibble) (r : RxSession) : (s.rxSet c r).rxReservedCount = s.rxReservedCount := rfl
@[simp] theorem State.rxSet_rxDiscardCount (s : State) (c : Nibble) (r : RxSession) : (s.rxSet c r).rxDiscardCount = s.rxDiscardCount := rfl
@[simp] theorem State.rxSet_params (s : State) (c : Nibble) (r : RxSession) : (s.rxSet c r).params = s.params := rfl
@[simp] theorem State.rxSet_queue (s : State) (c : Nibble) (r : RxSession) : (s.rxSet c r).queue = s.queue := rfl
@[simp] theorem State.rxSet_pins (s : State) (c : Nibble) (r : RxSession) : (s.rxSet c r).pins = s.pins := rfl
@[simp] theorem State.rxSet_out (s : State) (c : Nibble) (r : RxSession) : (s.rxSet c r).out = s.out := rfl
@[simp] theorem State.rxSet_held (s : State) (c : Nibble) (r : RxSession) : (s.rxSet c r).held = s.held := rfl
@[simp] theorem State.rxSet_srcMem (s : State) (c : Nibble) (r : RxSession) : (s.rxSet c r).srcMem = s.srcMem := rfl
@[simp] theorem State.rxSet_draws (s : State) (c : Nibble) (r : RxSession) : (s.rxSet c r).draws = s.draws := rfl

@[simp] theorem State.countReserved_txState (s : State) : s.countReserved.txState = s.txState := rfl
@[simp] theorem State.countReserved_txCable (s : State) : s.countReserved.txCable = s.txCable := rfl
@[simp] theorem State.countReserved_txLen (s : State) : s.countReserved.txLen = s.txLen := rfl
@[simp] theorem State.countReserved_txPos (s : State) : s.countReserved.txPos = s.txPos := rfl
@[simp] theorem State.countReserved_txFill (s : State) : s.countReserved.txFill = s.txFill := rfl
@[simp] theorem State.countReserved_txBuf (s : State) : s.countReserved.txBuf = s.txBuf := rfl
@[simp] theorem State.countReserved_txLastResult (s : State) : s.countReserved.txLastResult = s.txLastResult := rfl
@[simp] theorem State.countReserved_fxPkt (s : State) : s.countReserved.fxPkt = s.fxPkt := rfl
@[simp] theorem State.countReserved_txSrc (s : State) : s.countReserved.txSrc = s.txSrc := rfl
@[simp] theorem State.countReserved_rx (s : State) : s.countReserved.rx = s.rx := rfl
@[simp] theorem State.countReserved_rxReservedCount (s : State) : s.countReserved.rxReservedCount = s.rxReservedCount + 1 := rfl
@[simp] theorem State.countReserved_rxDiscardCount (s : State) : s.countReserved.rxDiscardCount = s.rxDiscardCount := rfl
@[simp] theorem State.countReserved_params (s : State) : s.countReserved.params = s.params := rfl
@[simp] theorem State.countReserved_queue (s : State) : s.countReserved.queue = s.queue := rfl
@[simp] theorem State.countReserved_pins (s : State) : s.countReserved.pins = s.pins := rfl
@[simp] theorem State.countReserved_out (s : State) : s.countReserved.out = s.out := rfl
@[simp] theorem State.countReserved_held (s : State) : s.countReserved.held = s.held := rfl
@[simp] theorem State.countReserved_srcMem (s : State) : s.countReserved.srcMem = s.srcMem := rfl
@[simp] theorem State.countReserved_draws (s : State) : s.countReserved.draws = s.draws := rfl

@[simp] theorem State.countDiscard_txState (s : State) : s.countDiscard.txState = s.txState := rfl
@[simp] theorem State.countDiscard_txCable (s : State) : s.countDiscard.txCable = s.txCable := rfl
@[simp] theorem State.countDiscard_txLen (s : State) : s.countDiscard.txLen = s.txLen := rfl
@[simp] theorem State.countDiscard_txPos (s : State) : s.countDiscard.txPos = s.txPos := rfl
@[simp] theorem State.countDiscard_txFill (s : State) : s.countDiscard.txFill = s.txFill := rfl
@[simp] theorem State.countDiscard_txBuf (s : State) : s.countDiscard.txBuf = s.txBuf := rfl
@[simp] theorem State.countDiscard_txLastResult (s : State) : s.countDiscard.txLastResult = s.txLastResult := rfl
@[simp] theorem State.countDiscard_fxPkt (s : State) : s.countDiscard.fxPkt = s.fxPkt := rfl
@[simp] theorem State.countDiscard_txSrc (s : State) : s.countDiscard.txSrc = s.txSrc := rfl
@[simp] theorem State.countDiscard_rx (s : State) : s.countDiscard.rx = s.rx := rfl
@[simp] theorem State.countDiscard_rxReservedCount (s : State) : s.countDiscard.rxReservedCount = s.rxReservedCount := rfl
@[simp] theorem State.countDiscard_rxDiscardCount (s : State) : s.countDiscard.rxDiscardCount = s.rxDiscardCount + 1 := rfl
@[simp] theorem State.countDiscard_params (s : State) : s.countDiscard.params = s.params := rfl
@[simp] theorem State.countDiscard_queue (s : State) : s.countDiscard.queue = s.queue := rfl
@[simp] theorem State.countDiscard_pins (s : State) : s.countDiscard.pins = s.pins := rfl
@[simp] theorem State.countDiscard_out (s : State) : s.countDiscard.out = s.out := rfl
@[simp] theorem State.countDiscard_held (s : State) : s.countDiscard.held = s.held := rfl
@[simp] theorem State.countDiscard_srcMem (s : State) : s.countDiscard.srcMem = s.srcMem := rfl
@[simp] theorem State.countDiscard_draws (s : State) : s.countDiscard.draws = s.draws := rfl

@[simp] theorem State.setTxState_txState (s : State) (t : TxState) : (s.setTxState t).txState = t := rfl
@[simp] theorem State.setTxState_txCable (s : State) (t : TxState) : (s.setTxState t).txCable = s.txCable := rfl
@[simp] theorem State.setTxState_txLen (s : State) (t : TxState) : (s.setTxState t).txLen = s.txLen := rfl
@[simp] theorem State.setTxState_txPos (s : State) (t : TxState) : (s.setTxState t).txPos = s.txPos := rfl
@[simp] theorem State.setTxState_txFill (s : State) (t : TxState) : (s.setTxState t).txFill = s.txFill := rfl
@[simp] theorem State.setTxState_txBuf (s : State) (t : TxState) : (s.setTxState t).txBuf = s.txBuf := rfl
@[simp] theorem State.setTxState_txLastResult (s : State) (t : TxState) : (s.setTxState t).txLastResult = s.txLastResult := rfl
@[simp] theorem State.setTxState_fxPkt (s : State) (t : TxState) : (s.setTxState t).fxPkt = s.fxPkt := rfl
@[simp] theorem State.setTxState_txSrc (s : State) (t : TxState) : (s.setTxState t).txSrc = s.txSrc := rfl
@[simp] theorem State.setTxState_rx (s : State) (t : TxState) : (s.setTxState t).rx = s.rx := rfl
@[simp] theorem State.setTxState_rxReservedCount (s : State) (t : TxState) : (s.setTxState t).rxReservedCount = s.rxReservedCount := rfl
@[simp] theorem State.setTxState_rxDiscardCount (s : State) (t : TxState) : (s.setTxState t).rxDiscardCount = s.rxDiscardCount := rfl
@[simp] theorem State.setTxState_params (s : State) (t : TxState) : (s.setTxState t).params = s.params := rfl
@[simp] theorem State.setTxState_queue (s : State) (t : TxState) : (s.setTxState t).queue = s.queue := rfl
@[simp] theorem State.setTxState_pins (s : State) (t : TxState) : (s.setTxState t).pins = s.pins := rfl
@[simp] theorem State.setTxState_out (s : State) (t : TxState) : (s.setTxState t).out = s.out := rfl
@[simp] theorem State.setTxState_held (s : State) (t : TxState) : (s.setTxState t).held = s.held := rfl
@[simp] theorem State.setTxState_srcMem (s : State) (t : TxState) : (s.setTxState t).srcMem = s.srcMem := rfl
@[simp] theorem State.setTxState_draws (s : State) (t : TxState) : (s.setTxState t).draws = s.draws := rfl

@[simp] theorem State.setLastResult_txState (s : State) (r : Result) : (s.setLastResult r).txState = s.txState := rfl
@[simp] theorem State.setLastResult_txCable (s : State) (r : Result) : (s.setLastResult r).txCable = s.txCable := rfl
@[simp] theorem State.setLastResult_txLen (s : State) (r : Result) : (s.setLastResult r).txLen = s.txLen := rfl
@[simp] theorem State.setLastResult_txPos (s : State) (r : Result) : (s.setLastResult r).txPos = s.txPos := rfl
@[simp] theorem State.setLastResult_txFill (s : State) (r : Result) : (s.setLastResult r).txFill = s.txFill := rfl
@[simp] theorem State.setLastResult_txBuf (s : State) (r : Result) : (s.setLastResult r).txBuf = s.txBuf := rfl
@[simp] theorem State.setLastResult_txLastResult (s : State) (r : Result) : (s.setLastResult r).txLastResult = r := rfl
@[simp] theorem State.setLastResult_fxPkt (s : State) (r : Result) : (s.setLastResult r).fxPkt = s.fxPkt := rfl
@[simp] theorem State.setLastResult_txSrc (s : State) (r : Result) : (s.setLastResult r).txSrc = s.txSrc := rfl
@[simp] theorem State.setLastResult_rx (s : State) (r : Result) : (s.setLastResult r).rx = s.rx := rfl
@[simp] theorem State.setLastResult_rxReservedCount (s : State) (r : Result) : (s.setLastResult r).rxReservedCount = s.rxReservedCount := rfl
@[simp] theorem State.setLastResult_rxDiscardCount (s : State) (r : Result) : (s.setLastResult r).rxDiscardCount = s.rxDiscardCount := rfl
@[simp] theorem State.setLastResult_params (s : State) (r : Result) : (s.setLastResult r).params = s.params := rfl
@[simp] theorem State.setLastResult_queue (s : State) (r : Result) : (s.setLastResult r).queue = s.queue := rfl
@[simp] theorem State.setLastResult_pins (s : State) (r : Result) : (s.setLastResult r).pins = s.pins := rfl
@[simp] theorem State.setLastResult_out (s : State) (r : Result) : (s.setLastResult r).out = s.out := rfl
@[simp] theorem State.setLastResult_held (s : State) (r : Result) : (s.setLastResult r).held = s.held := rfl
@[simp] theorem State.setLastResult_srcMem (s : State) (r : Result) : (s.setLastResult r).srcMem = s.srcMem := rfl
@[simp] theorem State.setLastResult_draws (s : State) (r : Result) : (s.setLastResult r).draws = s.draws := rfl

@[simp] theorem State.setFxPkt_txState (s : State) (p : Packet) : (s.setFxPkt p).txState = s.txState := rfl
@[simp] theorem State.setFxPkt_txCable (s : State) (p : Packet) : (s.setFxPkt p).txCable = s.txCable := rfl
@[simp] theorem State.setFxPkt_txLen (s : State) (p : Packet) : (s.setFxPkt p).txLen = s.txLen := rfl
@[simp] theorem State.setFxPkt_txPos (s : State) (p : Packet) : (s.setFxPkt p).txPos = s.txPos := rfl
@[simp] theorem State.setFxPkt_txFill (s : State) (p : Packet) : (s.setFxPkt p).txFill = s.txFill := rfl
@[simp] theorem State.setFxPkt_txBuf (s : State) (p : Packet) : (s.setFxPkt p).txBuf = s.txBuf := rfl
@[simp] theorem State.setFxPkt_txLastResult (s : State) (p : Packet) : (s.setFxPkt p).txLastResult = s.txLastResult := rfl
@[simp] theorem State.setFxPkt_fxPkt (s : State) (p : Packet) : (s.setFxPkt p).fxPkt = p := rfl
@[simp] theorem State.setFxPkt_txSrc (s : State) (p : Packet) : (s.setFxPkt p).txSrc = s.txSrc := rfl
@[simp] theorem State.setFxPkt_rx (s : State) (p : Packet) : (s.setFxPkt p).rx = s.rx := rfl
@[simp] theorem State.setFxPkt_rxReservedCount (s : State) (p : Packet) : (s.setFxPkt p).rxReservedCount = s.rxReservedCount := rfl
@[simp] theorem State.setFxPkt_rxDiscardCount (s : State) (p : Packet) : (s.setFxPkt p).rxDiscardCount = s.rxDiscardCount := rfl
@[simp] theorem State.setFxPkt_params (s : State) (p : Packet) : (s.setFxPkt p).params = s.params := rfl
@[simp] theorem State.setFxPkt_queue (s : State) (p : Packet) : (s.setFxPkt p).queue = s.queue := rfl
@[simp] theorem State.setFxPkt_pins (s : State) (p : Packet) : (s.setFxPkt p).pins = s.pins := rfl
@[simp] theorem State.setFxPkt_out (s : State) (p : Packet) : (s.setFxPkt p).out = s.out := rfl
@[simp] theorem State.setFxPkt_held (s : State) (p : Packet) : (s.setFxPkt p).held = s.held := rfl
@[simp] theorem State.setFxPkt_srcMem (s : State) (p : Packet) : (s.setFxPkt p).srcMem = s.srcMem := rfl
@[simp] theorem State.setFxPkt_draws (s : State) (p : Packet) : (s.setFxPkt p).draws = s.draws := rfl

@[simp] theorem State.openSession_txState (s : State) (c : Nibble) (l : Word32) (a : Nat) : (s.openSession c l a).txState = s.txState := rfl
@[simp] theorem State.openSession_txCable (s : State) (c : Nibble) (l : Word32) (a : Nat) : (s.openSession c l a).txCable = c := rfl
@[simp] theorem State.openSession_txLen (s : State) (c : Nibble) (l : Word32) (a : Nat) : (s.openSession c l a).txLen = l := rfl
@[simp] theorem State.openSession_txPos (s : State) (c : Nibble) (l : Word32) (a : Nat) : (s.openSession c l a).txPos = 0 := rfl
@[simp] theorem State.openSession_txFill (s : State) (c : Nibble) (l : Word32) (a : Nat) : (s.openSession c l a).txFill = s.txFill := rfl
@[simp] theorem State.openSession_txBuf (s : State) (c : Nibble) (l : Word32) (a : Nat) : (s.openSession c l a).txBuf = s.txBuf := rfl
@[simp] theorem State.openSession_txLastResult (s : State) (c : Nibble) (l : Word32) (a : Nat) : (s.openSession c l a).txLastResult = s.txLastResult := rfl
@[simp] theorem State.openSession_fxPkt (s : State) (c : Nibble) (l : Word32) (a : Nat) : (s.openSession c l a).fxPkt = s.fxPkt := rfl
@[simp] theorem State.openSession_txSrc (s : State) (c : Nibble) (l : Word32) (a : Nat) : (s.openSession c l a).txSrc = some a := rfl
@[simp] theorem State.openSession_rx (s : State) (c : Nibble) (l : Word32) (a : Nat) : (s.openSession c l a).rx = s.rx := rfl
@[simp] theorem State.openSession_rxReservedCount (s : State) (c : Nibble) (l : Word32) (a : Nat) : (s.openSession c l a).rxReservedCount = s.rxReservedCount := rfl
@[simp] theorem State.openSession_rxDiscardCount (s : State) (c : Nibble) (l : Word32) (a : Nat) : (s.openSession c l a).rxDiscardCount = s.rxDiscardCount := rfl
@[simp] theorem State.openSession_params (s : State) (c : Nibble) (l : Word32) (a : Nat) : (s.openSession c l a).params = s.params := rfl
@[simp] theorem State.openSession_queue (s : State) (c : Nibble) (l : Word32) (a : Nat) : (s.openSession c l a).queue = s.queue := rfl
@[simp] theorem State.openSession_pins (s : State) (c : Nibble) (l : Word32) (a : Nat) : (s.openSession c l a).pins = s.pins := rfl
@[simp] theorem State.openSession_out (s : State) (c : Nibble) (l : Word32) (a : Nat) : (s.openSession c l a).out = s.out := rfl
@[simp] theorem State.openSession_held (s : State) (c : Nibble) (l : Word32) (a : Nat) : (s.openSession c l a).held = s.held := rfl
@[simp] theorem State.openSession_srcMem (s : State) (c : Nibble) (l : Word32) (a : Nat) : (s.openSession c l a).srcMem = s.srcMem := rfl
@[simp] theorem State.openSession_draws (s : State) (c : Nibble) (l : Word32) (a : Nat) : (s.openSession c l a).draws = s.draws := rfl

@[simp] theorem State.startFill_txState (s : State) : s.startFill.txState = s.txState := rfl
@[simp] theorem State.startFill_txCable (s : State) : s.startFill.txCable = s.txCable := rfl
@[simp] theorem State.startFill_txLen (s : State) : s.startFill.txLen = s.txLen := rfl
@[simp] theorem State.startFill_txPos (s : State) : s.startFill.txPos = s.txPos := rfl
@[simp] theorem State.startFill_txFill (s : State) : s.startFill.txFill = 0 := rfl
@[simp] theorem State.startFill_txBuf (s : State) : s.startFill.txBuf = s.txBuf := rfl
@[simp] theorem State.startFill_txLastResult (s : State) : s.startFill.txLastResult = s.txLastResult := rfl
@[simp] theorem State.startFill_fxPkt (s : State) : s.startFill.fxPkt = s.fxPkt := rfl
@[simp] theorem State.startFill_txSrc (s : State) : s.startFill.txSrc = s.txSrc := rfl
@[simp] theorem State.startFill_rx (s : State) : s.startFill.rx = s.rx := rfl
@[simp] theorem State.startFill_rxReservedCount (s : State) : s.startFill.rxReservedCount = s.rxReservedCount := rfl
@[simp] theorem State.startFill_rxDiscardCount (s : State) : s.startFill.rxDiscardCount = s.rxDiscardCount := rfl
@[simp] theorem State.startFill_params (s : State) : s.startFill.params = s.params := rfl
@[simp] theorem State.startFill_queue (s : State) : s.startFill.queue = s.queue := rfl
@[simp] theorem State.startFill_pins (s : State) : s.startFill.pins = s.pins := rfl
@[simp] theorem State.startFill_out (s : State) : s.startFill.out = s.out := rfl
@[simp] theorem State.startFill_held (s : State) : s.startFill.held = s.held := rfl
@[simp] theorem State.startFill_srcMem (s : State) : s.startFill.srcMem = s.srcMem := rfl
@[simp] theorem State.startFill_draws (s : State) : s.startFill.draws = s.draws + 1 := rfl

@[simp] theorem State.putPacket_txState (s : State) (p : Packet) (k : Nat) : (s.putPacket p k).txState = s.txState := rfl
@[simp] theorem State.putPacket_txCable (s : State) (p : Packet) (k : Nat) : (s.putPacket p k).txCable = s.txCable := rfl
@[simp] theorem State.putPacket_txLen (s : State) (p : Packet) (k : Nat) : (s.putPacket p k).txLen = s.txLen := rfl
@[simp] theorem State.putPacket_txPos (s : State) (p : Packet) (k : Nat) : (s.putPacket p k).txPos = s.txPos + BitVec.ofNat 32 k := rfl
@[simp] theorem State.putPacket_txFill (s : State) (p : Packet) (k : Nat) : (s.putPacket p k).txFill = s.txFill + 1 := rfl
@[simp] theorem State.putPacket_txBuf (s : State) (p : Packet) (k : Nat) : (s.putPacket p k).txBuf = s.txBuf.writePacket (4 * s.txFill) p := rfl
@[simp] theorem State.putPacket_txLastResult (s : State) (p : Packet) (k : Nat) : (s.putPacket p k).txLastResult = s.txLastResult := rfl
@[simp] theorem State.putPacket_fxPkt (s : State) (p : Packet) (k : Nat) : (s.putPacket p k).fxPkt = s.fxPkt := rfl
@[simp] theorem State.putPacket_txSrc (s : State) (p : Packet) (k : Nat) : (s.putPacket p k).txSrc = s.txSrc := rfl
@[simp] theorem State.putPacket_rx (s : State) (p : Packet) (k : Nat) : (s.putPacket p k).rx = s.rx := rfl
@[simp] theorem State.putPacket_rxReservedCount (s : State) (p : Packet) (k : Nat) : (s.putPacket p k).rxReservedCount = s.rxReservedCount := rfl
@[simp] theorem State.putPacket_rxDiscardCount (s : State) (p : Packet) (k : Nat) : (s.putPacket p k).rxDiscardCount = s.rxDiscardCount := rfl
@[simp] theorem State.putPacket_params (s : State) (p : Packet) (k : Nat) : (s.putPacket p k).params = s.params := rfl
@[simp] theorem State.putPacket_queue (s : State) (p : Packet) (k : Nat) : (s.putPacket p k).queue = s.queue := rfl
@[simp] theorem State.putPacket_pins (s : State) (p : Packet) (k : Nat) : (s.putPacket p k).pins = s.pins := rfl
@[simp] theorem State.putPacket_out (s : State) (p : Packet) (k : Nat) : (s.putPacket p k).out = s.out := rfl
@[simp] theorem State.putPacket_held (s : State) (p : Packet) (k : Nat) : (s.putPacket p k).held = s.held := rfl
@[simp] theorem State.putPacket_srcMem (s : State) (p : Packet) (k : Nat) : (s.putPacket p k).srcMem = s.srcMem := rfl
@[simp] theorem State.putPacket_draws (s : State) (p : Packet) (k : Nat) : (s.putPacket p k).draws = s.draws := rfl

@[simp] theorem State.hand_txState (s : State) (b : TransferBuf) (n : Nat) : (s.hand b n).txState = s.txState := rfl
@[simp] theorem State.hand_txCable (s : State) (b : TransferBuf) (n : Nat) : (s.hand b n).txCable = s.txCable := rfl
@[simp] theorem State.hand_txLen (s : State) (b : TransferBuf) (n : Nat) : (s.hand b n).txLen = s.txLen := rfl
@[simp] theorem State.hand_txPos (s : State) (b : TransferBuf) (n : Nat) : (s.hand b n).txPos = s.txPos := rfl
@[simp] theorem State.hand_txFill (s : State) (b : TransferBuf) (n : Nat) : (s.hand b n).txFill = s.txFill := rfl
@[simp] theorem State.hand_txBuf (s : State) (b : TransferBuf) (n : Nat) : (s.hand b n).txBuf = s.txBuf := rfl
@[simp] theorem State.hand_txLastResult (s : State) (b : TransferBuf) (n : Nat) : (s.hand b n).txLastResult = s.txLastResult := rfl
@[simp] theorem State.hand_fxPkt (s : State) (b : TransferBuf) (n : Nat) : (s.hand b n).fxPkt = s.fxPkt := rfl
@[simp] theorem State.hand_txSrc (s : State) (b : TransferBuf) (n : Nat) : (s.hand b n).txSrc = s.txSrc := rfl
@[simp] theorem State.hand_rx (s : State) (b : TransferBuf) (n : Nat) : (s.hand b n).rx = s.rx := rfl
@[simp] theorem State.hand_rxReservedCount (s : State) (b : TransferBuf) (n : Nat) : (s.hand b n).rxReservedCount = s.rxReservedCount := rfl
@[simp] theorem State.hand_rxDiscardCount (s : State) (b : TransferBuf) (n : Nat) : (s.hand b n).rxDiscardCount = s.rxDiscardCount := rfl
@[simp] theorem State.hand_params (s : State) (b : TransferBuf) (n : Nat) : (s.hand b n).params = s.params := rfl
@[simp] theorem State.hand_queue (s : State) (b : TransferBuf) (n : Nat) : (s.hand b n).queue = s.queue := rfl
@[simp] theorem State.hand_pins (s : State) (b : TransferBuf) (n : Nat) : (s.hand b n).pins = s.pins := rfl
@[simp] theorem State.hand_out (s : State) (b : TransferBuf) (n : Nat) : (s.hand b n).out = s.out := rfl
@[simp] theorem State.hand_held (s : State) (b : TransferBuf) (n : Nat) : (s.hand b n).held = s.held ++ [⟨b, n⟩] := rfl
@[simp] theorem State.hand_srcMem (s : State) (b : TransferBuf) (n : Nat) : (s.hand b n).srcMem = s.srcMem := rfl
@[simp] theorem State.hand_draws (s : State) (b : TransferBuf) (n : Nat) : (s.hand b n).draws = s.draws := rfl

@[simp] theorem State.release_txState (s : State) : s.release.txState = s.txState := rfl
@[simp] theorem State.release_txCable (s : State) : s.release.txCable = s.txCable := rfl
@[simp] theorem State.release_txLen (s : State) : s.release.txLen = s.txLen := rfl
@[simp] theorem State.release_txPos (s : State) : s.release.txPos = s.txPos := rfl
@[simp] theorem State.release_txFill (s : State) : s.release.txFill = s.txFill := rfl
@[simp] theorem State.release_txBuf (s : State) : s.release.txBuf = s.txBuf := rfl
@[simp] theorem State.release_txLastResult (s : State) : s.release.txLastResult = s.txLastResult := rfl
@[simp] theorem State.release_fxPkt (s : State) : s.release.fxPkt = s.fxPkt := rfl
@[simp] theorem State.release_txSrc (s : State) : s.release.txSrc = s.txSrc := rfl
@[simp] theorem State.release_rx (s : State) : s.release.rx = s.rx := rfl
@[simp] theorem State.release_rxReservedCount (s : State) : s.release.rxReservedCount = s.rxReservedCount := rfl
@[simp] theorem State.release_rxDiscardCount (s : State) : s.release.rxDiscardCount = s.rxDiscardCount := rfl
@[simp] theorem State.release_params (s : State) : s.release.params = s.params := rfl
@[simp] theorem State.release_queue (s : State) : s.release.queue = s.queue := rfl
@[simp] theorem State.release_pins (s : State) : s.release.pins = s.pins := rfl
@[simp] theorem State.release_out (s : State) : s.release.out = s.out := rfl
@[simp] theorem State.release_held (s : State) : s.release.held = s.held.tail := rfl
@[simp] theorem State.release_srcMem (s : State) : s.release.srcMem = s.srcMem := rfl
@[simp] theorem State.release_draws (s : State) : s.release.draws = s.draws := rfl

@[simp] theorem State.accept_txState (s : State) (i : StepInput) (rest : List StepInput) : (s.accept i rest).txState = s.txState := rfl
@[simp] theorem State.accept_txCable (s : State) (i : StepInput) (rest : List StepInput) : (s.accept i rest).txCable = s.txCable := rfl
@[simp] theorem State.accept_txLen (s : State) (i : StepInput) (rest : List StepInput) : (s.accept i rest).txLen = s.txLen := rfl
@[simp] theorem State.accept_txPos (s : State) (i : StepInput) (rest : List StepInput) : (s.accept i rest).txPos = s.txPos := rfl
@[simp] theorem State.accept_txFill (s : State) (i : StepInput) (rest : List StepInput) : (s.accept i rest).txFill = s.txFill := rfl
@[simp] theorem State.accept_txBuf (s : State) (i : StepInput) (rest : List StepInput) : (s.accept i rest).txBuf = s.txBuf := rfl
@[simp] theorem State.accept_txLastResult (s : State) (i : StepInput) (rest : List StepInput) : (s.accept i rest).txLastResult = s.txLastResult := rfl
@[simp] theorem State.accept_fxPkt (s : State) (i : StepInput) (rest : List StepInput) : (s.accept i rest).fxPkt = s.fxPkt := rfl
@[simp] theorem State.accept_txSrc (s : State) (i : StepInput) (rest : List StepInput) : (s.accept i rest).txSrc = s.txSrc := rfl
@[simp] theorem State.accept_rx (s : State) (i : StepInput) (rest : List StepInput) : (s.accept i rest).rx = s.rx := rfl
@[simp] theorem State.accept_rxReservedCount (s : State) (i : StepInput) (rest : List StepInput) : (s.accept i rest).rxReservedCount = s.rxReservedCount := rfl
@[simp] theorem State.accept_rxDiscardCount (s : State) (i : StepInput) (rest : List StepInput) : (s.accept i rest).rxDiscardCount = s.rxDiscardCount := rfl
@[simp] theorem State.accept_params (s : State) (i : StepInput) (rest : List StepInput) : (s.accept i rest).params = s.params := rfl
@[simp] theorem State.accept_queue (s : State) (i : StepInput) (rest : List StepInput) : (s.accept i rest).queue = rest := rfl
@[simp] theorem State.accept_pins (s : State) (i : StepInput) (rest : List StepInput) : (s.accept i rest).pins = i.pins := rfl
@[simp] theorem State.accept_out (s : State) (i : StepInput) (rest : List StepInput) : (s.accept i rest).out = s.out := rfl
@[simp] theorem State.accept_held (s : State) (i : StepInput) (rest : List StepInput) : (s.accept i rest).held = s.held := rfl
@[simp] theorem State.accept_srcMem (s : State) (i : StepInput) (rest : List StepInput) : (s.accept i rest).srcMem = s.srcMem.writeAll i.hostWrites := rfl
@[simp] theorem State.accept_draws (s : State) (i : StepInput) (rest : List StepInput) : (s.accept i rest).draws = s.draws := rfl

@[simp] theorem State.resetBlock_txState (s : State) : s.resetBlock.txState = .idle := rfl
@[simp] theorem State.resetBlock_txCable (s : State) : s.resetBlock.txCable = 0 := rfl
@[simp] theorem State.resetBlock_txLen (s : State) : s.resetBlock.txLen = 0 := rfl
@[simp] theorem State.resetBlock_txPos (s : State) : s.resetBlock.txPos = 0 := rfl
@[simp] theorem State.resetBlock_txFill (s : State) : s.resetBlock.txFill = 0 := rfl
@[simp] theorem State.resetBlock_txBuf (s : State) : s.resetBlock.txBuf = [] := rfl
@[simp] theorem State.resetBlock_txLastResult (s : State) : s.resetBlock.txLastResult = .ok := rfl
@[simp] theorem State.resetBlock_fxPkt (s : State) : s.resetBlock.fxPkt = ⟨0, 0, 0, 0⟩ := rfl
@[simp] theorem State.resetBlock_txSrc (s : State) : s.resetBlock.txSrc = none := rfl
@[simp] theorem State.resetBlock_rx (s : State) : s.resetBlock.rx = Vector.replicate 16 RxSession.reset := rfl
@[simp] theorem State.resetBlock_rxReservedCount (s : State) : s.resetBlock.rxReservedCount = 0 := rfl
@[simp] theorem State.resetBlock_rxDiscardCount (s : State) : s.resetBlock.rxDiscardCount = 0 := rfl
@[simp] theorem State.resetBlock_params (s : State) : s.resetBlock.params = s.params := rfl
@[simp] theorem State.resetBlock_queue (s : State) : s.resetBlock.queue = s.queue := rfl
@[simp] theorem State.resetBlock_pins (s : State) : s.resetBlock.pins = s.pins := rfl
@[simp] theorem State.resetBlock_out (s : State) : s.resetBlock.out = s.out := rfl
@[simp] theorem State.resetBlock_held (s : State) : s.resetBlock.held = s.held := rfl
@[simp] theorem State.resetBlock_srcMem (s : State) : s.resetBlock.srcMem = s.srcMem := rfl
@[simp] theorem State.resetBlock_draws (s : State) : s.resetBlock.draws = s.draws := rfl

/-! ## Reassemblers -/

theorem State.rxGet_congr {s t : State} (h : t.rx = s.rx) (c : Nibble) : t.rxGet c = s.rxGet c := by
  simp [State.rxGet, h]

@[simp] theorem State.rxGet_rxSet_same (s : State) (c : Nibble) (r : RxSession) : (s.rxSet c r).rxGet c = r := by
  simp [State.rxGet, State.rxSet]

theorem State.rxGet_rxSet_other (s : State) {c c' : Nibble} (r : RxSession) (h : c' ≠ c) :
    (s.rxSet c r).rxGet c' = s.rxGet c' := by
  have h' : c.toNat ≠ c'.toNat := fun e => h (BitVec.eq_of_toNat_eq e.symm)
  simp [State.rxGet, State.rxSet, h']

@[simp] theorem State.rxGet_resetWith (p : Params) (c : Nibble) :
    (State.resetWith p).rxGet c = RxSession.reset := by
  simp [State.rxGet, State.resetWith]

/-! ## Answers -/

theorem State.reply_eq (s : State) (r : Result) : s.reply r = .next (s.answer ⟨r, 0, [], none⟩) := rfl

theorem State.refuse_eq (s : State) (r : Result) : s.refuse r = .next (s.answer ⟨r, 0, [], none⟩) := rfl

theorem State.emit_eq (s : State) (es : List Event) : s.emit es = .next (s.answer ⟨.ok, 0, es, none⟩) := rfl

theorem State.sent_eq (s : State) (r : Result) (bs : List Byte) :
    s.sent r bs = .next (s.answer ⟨r, 0, [], some bs⟩) := rfl

end Sys2Proof.Machine
end

