-- ==== Sys2Proof/Laws/Receive.lean ====
section
/-! SUPPORT. What a receive command can do: each transition as one equation, and once for all of them. -/

namespace Sys2Proof.Machine

/-! ## The transitions -/

theorem rxReserved_eq (s : State) :
    rxReserved s = .next { s with rxReservedCount := s.rxReservedCount + 1, out := some ⟨.ok, 0, [], none⟩ } := rfl

theorem rxDiscard_eq (s : State) :
    rxDiscard s = .next { s with rxDiscardCount := s.rxDiscardCount + 1, out := some ⟨.ok, 0, [], none⟩ } := rfl

theorem rxMessage_eq (c : Nibble) (d : List Byte) (s : State) :
    rxMessage c d s = .next { s with out := some ⟨.ok, 0, [.message c d], none⟩ } := rfl

theorem rxSxStart_eq (c : Nibble) (d : List Byte) (s : State) :
    rxSxStart c d s = .next { s with
      rx := s.rx.set c.toNat ⟨.receiving, 1 + BitVec.ofNat 32 (d.length - 1), tsTrunc s.params s.pins.now⟩
      out := some ⟨.ok, 0, [.sysexStart c, .sysexData c (d.drop 1)], none⟩ } := rfl

theorem rxSxCont_idle {c : Nibble} {s : State} (d : List Byte) (h : (s.rxGet c).state = .idle) :
    rxSxCont c d s = rxDiscard s := by
  simp [rxSxCont, h]

theorem rxSxCont_receiving {c : Nibble} {s : State} (d : List Byte) (h : (s.rxGet c).state = .receiving) :
    rxSxCont c d s = .next { s with
      rx := s.rx.set c.toNat ⟨.receiving, (s.rxGet c).count + BitVec.ofNat 32 d.length, (s.rxGet c).start⟩
      out := some ⟨.ok, 0, [.sysexData c d], none⟩ } := by
  simp [rxSxCont, h, State.emit_eq, State.answer, State.rxSet]

theorem rxSxEnd_idle {c : Nibble} {s : State} (d : List Byte) (h : (s.rxGet c).state = .idle) :
    rxSxEnd c d s = rxDiscard s := by
  simp [rxSxEnd, h]

theorem rxSxEnd_receiving {c : Nibble} {s : State} (d : List Byte) (h : (s.rxGet c).state = .receiving) :
    rxSxEnd c d s = .next { s with
      rx := s.rx.set c.toNat ⟨.idle, (s.rxGet c).count + BitVec.ofNat 32 d.length, (s.rxGet c).start⟩
      out := some ⟨.ok, 0, (if 1 < d.length then [.sysexData c d.dropLast] else []) ++
        [.sysexEnd c ((s.rxGet c).count + BitVec.ofNat 32 d.length)
          (tsTrunc s.params (s.pins.now - (s.rxGet c).start))], none⟩ } := by
  simp [rxSxEnd, h, State.emit_eq, State.answer, State.rxSet]

theorem rxSxComplete_eq (c : Nibble) (d : List Byte) (s : State) :
    rxSxComplete c d s = .next { s with
      rx := s.rx.set c.toNat ⟨.idle, BitVec.ofNat 32 d.length, tsTrunc s.params s.pins.now⟩
      out := some ⟨.ok, 0, .sysexStart c :: (if d.length = 3 then [.sysexData c [d.getD 1 0]] else []) ++
        [.sysexEnd c (BitVec.ofNat 32 d.length) 0], none⟩ } := rfl

theorem tsTrunc_lt (p : Params) (v : Word64) : (tsTrunc p v).toNat < 2 ^ p.tsW := by
  simp only [tsTrunc, BitVec.toNat_ofNat]
  exact Nat.lt_of_le_of_lt (Nat.mod_le _ _) (Nat.mod_lt _ (Nat.two_pow_pos _))

theorem onCable_of_lt {s : State} {c : Nibble} (f : State → Answer) (h : c.toNat < s.params.nCables) :
    s.onCable c f = f s := by
  simp [State.onCable, State.cableOk, h]

theorem onCable_of_ge {s : State} {c : Nibble} (f : State → Answer) (h : s.params.nCables ≤ c.toNat) :
    s.onCable c f = rxDiscard s := by
  simp [State.onCable, State.cableOk, Nat.not_lt.2 h]

/-! ## What every receive command does -/

/-- The answer of a receive command: OK, at most three events of one to three bytes, no send; and of the state it
writes the two counters, and the reassembler of one cable the block has, which keeps a start of TS_W bits. -/
def ReceiveAnswer (s : State) (a : Answer) : Prop :=
  ∃ (v : Vector RxSession 16) (m n : Word32) (es : List Event),
    a = .next { s with rx := v, rxReservedCount := m, rxDiscardCount := n, out := some ⟨.ok, 0, es, none⟩ } ∧
    es.length ≤ 3 ∧
    (∀ c d, Event.message c d ∈ es ∨ Event.sysexData c d ∈ es → 1 ≤ d.length ∧ d.length ≤ 3) ∧
    (v = s.rx ∨ ∃ (c : Nibble) (r : RxSession), c.toNat < s.params.nCables ∧ v = s.rx.set c.toNat r ∧
      (r.start.toNat < 2 ^ s.params.tsW ∨ r.start = (s.rxGet c).start))

theorem rxReserved_answer (s : State) : ReceiveAnswer s (rxReserved s) :=
  ⟨s.rx, _, _, _, rfl, by simp, by simp, .inl rfl⟩

theorem rxDiscard_answer (s : State) : ReceiveAnswer s (rxDiscard s) :=
  ⟨s.rx, _, _, _, rfl, by simp, by simp, .inl rfl⟩

theorem rxMessage_answer (c : Nibble) {d : List Byte} (s : State) (h : 1 ≤ d.length ∧ d.length ≤ 3) :
    ReceiveAnswer s (rxMessage c d s) :=
  ⟨s.rx, _, _, _, rfl, by simp, by simpa using h, .inl rfl⟩

theorem rxSxStart_answer {c : Nibble} {d : List Byte} {s : State} (hc : c.toNat < s.params.nCables)
    (h : d.length = 3) : ReceiveAnswer s (rxSxStart c d s) :=
  ⟨_, s.rxReservedCount, s.rxDiscardCount, _, rxSxStart_eq c d s, by simp, by simp [h],
    .inr ⟨c, _, hc, rfl, .inl (tsTrunc_lt _ _)⟩⟩

theorem rxSxCont_answer {c : Nibble} {d : List Byte} {s : State} (hc : c.toNat < s.params.nCables)
    (h : 1 ≤ d.length ∧ d.length ≤ 3) : ReceiveAnswer s (rxSxCont c d s) := by
  cases hs : (s.rxGet c).state with
  | idle => rw [rxSxCont_idle d hs]; exact rxDiscard_answer s
  | receiving =>
    exact ⟨_, s.rxReservedCount, s.rxDiscardCount, _, rxSxCont_receiving d hs, by simp, by simpa using h,
      .inr ⟨c, _, hc, rfl, .inr rfl⟩⟩

theorem rxSxEnd_answer {c : Nibble} {d : List Byte} {s : State} (hc : c.toNat < s.params.nCables)
    (h : 1 ≤ d.length ∧ d.length ≤ 3) : ReceiveAnswer s (rxSxEnd c d s) := by
  cases hs : (s.rxGet c).state with
  | idle => rw [rxSxEnd_idle d hs]; exact rxDiscard_answer s
  | receiving =>
    refine ⟨_, s.rxReservedCount, s.rxDiscardCount, _, rxSxEnd_receiving d hs, ?_, ?_, .inr ⟨c, _, hc, rfl, .inr rfl⟩⟩
    · split <;> simp
    · split
      · intro c' d' hd
        have : d' = d.dropLast := by simp at hd; exact hd.2
        subst this
        simp; omega
      · simp

theorem rxSxComplete_answer {c : Nibble} (d : List Byte) {s : State} (hc : c.toNat < s.params.nCables) :
    ReceiveAnswer s (rxSxComplete c d s) := by
  refine ⟨_, s.rxReservedCount, s.rxDiscardCount, _, rxSxComplete_eq c d s, ?_, ?_,
    .inr ⟨c, _, hc, rfl, .inl (tsTrunc_lt _ _)⟩⟩
  · split <;> simp
  · split <;> simp +contextual

theorem onCable_answer {s : State} {c : Nibble} {f : State → Answer}
    (h : c.toNat < s.params.nCables → ReceiveAnswer s (f s)) : ReceiveAnswer s (s.onCable c f) := by
  rcases Nat.lt_or_ge c.toNat s.params.nCables with hc | hc
  · rw [onCable_of_lt f hc]; exact h hc
  · rw [onCable_of_ge f hc]; exact rxDiscard_answer s

/-- The data of a packet whose CIN is not reserved are one to three bytes, three where the CIN is 0x4 and one
where it is 0x5. -/
theorem Packet.decode_spec (q : Packet) :
    q.decode.cable = q.b0.extractLsb' 4 4 ∧ q.decode.cin = q.b0.extractLsb' 0 4 ∧
    q.decode.n = cinCount q.decode.cin ∧ q.decode.d = [q.b1, q.b2, q.b3].take (cinCount q.decode.cin) ∧
    q.decode.d.length = q.decode.n := by
  refine ⟨rfl, rfl, rfl, rfl, ?_⟩
  have : ∀ c : Nibble, cinCount c ≤ 3 := by decide
  simp [Packet.decode, this]

theorem cinCount_le (c : Nibble) : cinCount c ≤ 3 := by revert c; decide

theorem kind_eq_sxStart {c : Nibble} {b : Byte} (h : kind c b = .sxStart) : c = 0x4 ∧ b = 0xF0 := by
  revert h b c; decide

/-- The kinds of the CINs that are not reserved (30_encoding.md R106). -/
theorem kind_table (b : Byte) : kind 0x2 b = .msg ∧ kind 0x3 b = .msg ∧
    kind 0x4 b = (if b = 0xF0 then .sxStart else .sxCont) ∧ kind 0x5 b = (if b = 0xF7 then .sxEnd else .msg) ∧
    kind 0x6 b = (if b = 0xF0 then .sxComplete else .sxEnd) ∧ kind 0x7 b = (if b = 0xF0 then .sxComplete else .sxEnd) ∧
    kind 0x8 b = .msg ∧ kind 0x9 b = .msg ∧ kind 0xA b = .msg ∧ kind 0xB b = .msg ∧ kind 0xC b = .msg ∧
    kind 0xD b = .msg ∧ kind 0xE b = .msg ∧ kind 0xF b = .msg := by
  revert b; decide

/-- RX_FRAME in the fields of its packet. -/
theorem execRxFrame_pktWord (c n : Nibble) (b1 b2 b3 : Byte) (s : State) :
    execRxFrame (pktWord c n b1 b2 b3) s =
      if cinCount n = 0 then rxReserved s
      else s.onCable c fun s =>
        match kind n b1 with
        | .reserved   => rxReserved s
        | .msg        => rxMessage c ([b1, b2, b3].take (cinCount n)) s
        | .sxStart    => rxSxStart c ([b1, b2, b3].take (cinCount n)) s
        | .sxCont     => rxSxCont c ([b1, b2, b3].take (cinCount n)) s
        | .sxEnd      => rxSxEnd c ([b1, b2, b3].take (cinCount n)) s
        | .sxComplete => rxSxComplete c ([b1, b2, b3].take (cinCount n)) s := by
  simp only [execRxFrame, Packet.decode, Packet.ofWord, byteAt0_pktWord, byteAt1_pktWord, byteAt2_pktWord,
    byteAt3_pktWord, (nibbles_append c n).1, (nibbles_append c n).2]
  by_cases h : cinCount n = 0
  · simp only [h, if_true]
  · have : ([b1, b2, b3].take (cinCount n)).getD 0 0 = b1 := by
      obtain ⟨k, hk⟩ := Nat.exists_eq_succ_of_ne_zero h
      simp [hk]
    simp only [h, if_false, this]
    all_goals rfl

/-- RX_FRAME. -/
theorem execRxFrame_answer (p : Word32) (s : State) : ReceiveAnswer s (execRxFrame p s) := by
  simp only [execRxFrame]
  generalize hq : (Packet.ofWord p).decode = q
  have hl : q.d.length = q.n := hq ▸ (Packet.decode_spec _).2.2.2.2
  have hn : q.n = cinCount q.cin := hq ▸ (Packet.decode_spec _).2.2.1
  have h3 := cinCount_le q.cin
  split
  · exact rxReserved_answer s
  · rename_i h0
    refine onCable_answer fun hc => ?_
    have hd : 1 ≤ q.d.length ∧ q.d.length ≤ 3 := by omega
    split
    · exact rxReserved_answer s
    · exact rxMessage_answer _ s hd
    · rename_i hk
      refine rxSxStart_answer hc ?_
      have : q.cin = 0x4 := by
        exact (kind_eq_sxStart hk).1
      rw [hl, hn, this]; rfl
    · exact rxSxCont_answer hc hd
    · exact rxSxEnd_answer hc hd
    · exact rxSxComplete_answer _ hc

/-- Every receive command. -/
theorem exec_receive {i : Instr} (h : pathOf i = .receive) (s : State) : ReceiveAnswer s (exec i s) := by
  cases i <;> simp only [pathOf, reduceCtorEq] at h <;> simp only [exec]
  case rxFrame p => exact execRxFrame_answer p s
  case pktReserved0 => exact rxReserved_answer s
  case pktReserved1 => exact rxReserved_answer s
  case pktSyscom2 => exact onCable_answer fun _ => rxMessage_answer _ s (by simp)
  case pktSyscom3 => exact onCable_answer fun _ => rxMessage_answer _ s (by simp)
  case pktSxStart => exact onCable_answer fun hc => rxSxStart_answer hc rfl
  case pktSxCont => exact onCable_answer fun hc => rxSxCont_answer hc (by simp)
  case pktSxEnd1 => exact onCable_answer fun hc => rxSxEnd_answer hc (by simp)
  case pktSingleSys => exact onCable_answer fun _ => rxMessage_answer _ s (by simp)
  case pktSxComplete2 => exact onCable_answer fun hc => rxSxComplete_answer _ hc
  case pktSxEnd2 => exact onCable_answer fun hc => rxSxEnd_answer hc (by simp)
  case pktSxComplete3 => exact onCable_answer fun hc => rxSxComplete_answer _ hc
  case pktSxEnd3 => exact onCable_answer fun hc => rxSxEnd_answer hc (by simp)
  case pktNoteOff => exact onCable_answer fun _ => rxMessage_answer _ s (by simp)
  case pktNoteOn => exact onCable_answer fun _ => rxMessage_answer _ s (by simp)
  case pktPolyPressure => exact onCable_answer fun _ => rxMessage_answer _ s (by simp)
  case pktControlChange => exact onCable_answer fun _ => rxMessage_answer _ s (by simp)
  case pktProgramChange => exact onCable_answer fun _ => rxMessage_answer _ s (by simp)
  case pktChannelPressure => exact onCable_answer fun _ => rxMessage_answer _ s (by simp)
  case pktPitchBend => exact onCable_answer fun _ => rxMessage_answer _ s (by simp)
  case pktSingleByte => exact onCable_answer fun _ => rxMessage_answer _ s (by simp)

end Sys2Proof.Machine
end

