-- ==== Sys2Proof/Laws/Memory.lean ====
section
/-! SUPPORT. The laws of a memory: what is read after a write, and that every operation keeps the canonical form. -/

namespace Sys2Proof.Machine

@[simp] theorem Memory.read_nil (a : Nat) : Memory.read [] a = none := rfl

theorem Memory.read_cons (a : Nat) (v : Byte) (m : Memory) (x : Nat) :
    Memory.read ((a, v) :: m) x = if a = x then some v else m.read x := rfl

/-- A read after a write to the same address gives the value written. -/
@[simp] theorem Memory.read_write_same (m : Memory) (x : Nat) (v : Byte) : (m.write x v).read x = some v := by
  induction m with
  | nil => simp [Memory.write, Memory.read]
  | cons c m ih =>
    obtain ⟨a, u⟩ := c
    simp only [Memory.write]
    split
    · simp [Memory.read]
    · split
      · simp [Memory.read]
      · rename_i h
        simp [Memory.read, Ne.symm h, ih]

/-- A write leaves every other address alone. -/
theorem Memory.read_write_other (m : Memory) {x y : Nat} (v : Byte) (h : y ≠ x) : (m.write x v).read y = m.read y := by
  induction m with
  | nil => simp [Memory.write, Memory.read, Ne.symm h]
  | cons c m ih =>
    obtain ⟨a, u⟩ := c
    simp only [Memory.write]
    split
    · simp [Memory.read, Ne.symm h]
    · split
      · rename_i h'
        subst h'
        simp [Memory.read, Ne.symm h]
      · simp [Memory.read, ih]

theorem Memory.read_write (m : Memory) (x y : Nat) (v : Byte) :
    (m.write x v).read y = if y = x then some v else m.read y := by
  split
  · next h => subst h; simp
  · next h => exact m.read_write_other v h

/-- The addresses of a memory after a write: the one written, and those before. -/
theorem Memory.mem_write {m : Memory} {x : Nat} {v : Byte} {c : Host.Cell} (h : c ∈ m.write x v) :
    c.1 = x ∨ c ∈ m := by
  induction m with
  | nil => simp only [Memory.write, List.mem_singleton] at h; exact .inl (by rw [h])
  | cons d m ih =>
    obtain ⟨a, u⟩ := d
    simp only [Memory.write] at h
    split at h
    · rcases List.mem_cons.1 h with h | h
      · exact .inl (by rw [h])
      · exact .inr h
    · split at h
      · rcases List.mem_cons.1 h with h | h
        · exact .inl (by rw [h])
        · exact .inr (List.mem_cons_of_mem _ h)
      · rcases List.mem_cons.1 h with h | h
        · exact .inr (h ▸ List.mem_cons_self)
        · rcases ih h with h | h
          · exact .inl h
          · exact .inr (List.mem_cons_of_mem _ h)

theorem Memory.wf_nil : Memory.wf [] := List.Pairwise.nil

/-- A write keeps the canonical form. -/
theorem Memory.wf_write {m : Memory} (h : m.wf) (x : Nat) (v : Byte) : (m.write x v).wf := by
  induction m with
  | nil => exact List.pairwise_singleton _ _
  | cons c m ih =>
    obtain ⟨a, u⟩ := c
    obtain ⟨ha, hm⟩ := List.pairwise_cons.1 h
    simp only [Memory.write]
    split
    · rename_i hx
      refine List.pairwise_cons.2 ⟨fun d hd => ?_, h⟩
      rcases List.mem_cons.1 hd with rfl | hd
      · exact hx
      · exact Nat.lt_trans hx (ha d hd)
    · split
      · rename_i hx
        exact List.pairwise_cons.2 ⟨fun d hd => hx ▸ ha d hd, hm⟩
      · rename_i h1 h2
        refine List.pairwise_cons.2 ⟨fun d hd => ?_, ih hm⟩
        rcases Memory.mem_write hd with hd | hd
        · show a < d.1; omega
        · exact ha d hd

theorem Memory.wf_writeAll {m : Memory} (h : m.wf) (cells : List Host.Cell) : (m.writeAll cells).wf := by
  induction cells generalizing m with
  | nil => exact h
  | cons c cs ih => exact ih (Memory.wf_write h c.1 c.2)

@[simp] theorem Memory.writeAll_nil (m : Memory) : m.writeAll [] = m := rfl

theorem Memory.wf_writePacket {m : Memory} (h : m.wf) (off : Nat) (p : Packet) : (m.writePacket off p).wf :=
  Memory.wf_write (Memory.wf_write (Memory.wf_write (Memory.wf_write h _ _) _ _) _ _) _ _

theorem Memory.mem_writePacket {m : Memory} {off : Nat} {p : Packet} {c : Host.Cell}
    (h : c ∈ m.writePacket off p) : (off ≤ c.1 ∧ c.1 < off + 4) ∨ c ∈ m := by
  rcases Memory.mem_write h with h | h
  · left; omega
  rcases Memory.mem_write h with h | h
  · left; omega
  rcases Memory.mem_write h with h | h
  · left; omega
  rcases Memory.mem_write h with h | h
  · left; omega
  exact .inr h

/-- What is read after a packet is stored: its bytes at the four offsets, everything else as before. -/
theorem Memory.read_writePacket (m : Memory) (off : Nat) (p : Packet) (a : Nat) :
    (m.writePacket off p).read a =
      if off ≤ a ∧ a < off + 4 then p.bytes[a - off]? else m.read a := by
  simp only [Memory.writePacket, Memory.read_write, Packet.bytes]
  by_cases h : off ≤ a ∧ a < off + 4
  · obtain ⟨k, rfl⟩ : ∃ k, a = off + k := ⟨a - off, by omega⟩
    have hk : k < 4 := by omega
    interval_cases k <;> simp
  · rw [if_neg h]
    repeat rw [if_neg (by omega)]

/-- Bytes that are all written are read, in order. -/
theorem Memory.readBytes_eq_some {m : Memory} {off : Nat} {bs : List Byte}
    (h : ∀ j (hj : j < bs.length), m.read (off + j) = some bs[j]) : m.readBytes off bs.length = some bs := by
  induction bs generalizing off with
  | nil => rfl
  | cons b bs ih =>
    have h0 := h 0 (by simp)
    have h1 : m.readBytes (off + 1) bs.length = some bs :=
      ih fun j hj => by
        have e : off + 1 + j = off + (j + 1) := by omega
        rw [e]
        exact h (j + 1) (by simpa using hj)
    simp only [List.length_cons, Memory.readBytes]
    simp only [Nat.add_zero, List.getElem_cons_zero] at h0
    rw [h0, h1]

/-- A read of several bytes that succeeds says what each one is. -/
theorem Memory.readBytes_spec {m : Memory} {off n : Nat} {bs : List Byte} (h : m.readBytes off n = some bs) :
    bs.length = n ∧ ∀ j, j < n → m.read (off + j) = bs[j]? := by
  induction n generalizing off bs with
  | zero => simp only [Memory.readBytes, Option.some.injEq] at h; subst h; simp
  | succ n ih =>
    simp only [Memory.readBytes] at h
    split at h
    · rename_i b cs hb hcs
      simp only [Option.some.injEq] at h
      subst h
      obtain ⟨hl, hr⟩ := ih hcs
      refine ⟨by simp [hl], fun j hj => ?_⟩
      cases j with
      | zero => simpa using hb
      | succ j =>
        have := hr j (by omega)
        simpa [Nat.add_assoc, Nat.add_comm 1 j] using this
    · simp at h

/-- The read of several bytes succeeds exactly when every one of them is written. -/
theorem Memory.readBytes_isSome {m : Memory} {off n : Nat} (h : ∀ j, j < n → (m.read (off + j)).isSome) :
    ∃ bs, m.readBytes off n = some bs := by
  induction n generalizing off with
  | zero => exact ⟨[], rfl⟩
  | succ n ih =>
    obtain ⟨b, hb⟩ := Option.isSome_iff_exists.1 (h 0 (by omega))
    obtain ⟨bs, hbs⟩ := ih (off := off + 1) fun j hj => by
      simpa [Nat.add_assoc, Nat.add_comm 1 j] using h (j + 1) (by omega)
    simp only [Nat.add_zero] at hb
    exact ⟨b :: bs, by simp only [Memory.readBytes, hb, hbs]⟩

end Sys2Proof.Machine
end

