-- ==== Sys2Proof/Laws/Transmit.lean ====
section
/-! SUPPORT. What a transmit command can do: the cases of a fixed message, and what Fill packs, sends and writes. -/

namespace Sys2Proof.Machine

/-! ## Fixed messages -/

/-- The cases of a fixed message, in the order of its checks. -/
theorem sendMessage_cases (s : State) (c : Nibble) (m : Option FixedMessage) :
    ((s.params.nCables ≤ c.toNat ∨ m = none) ∧
      s.sendMessage c m = .next { s with out := some ⟨.invalidMessage, 0, [], none⟩ }) ∨
    ∃ x, m = some x ∧ c.toNat < s.params.nCables ∧
      ((s.txState ≠ .idle ∧ s.sendMessage c m = .next { s with out := some ⟨.sessionBusy, 0, [], none⟩ }) ∨
      (s.txState = .idle ∧ s.pins.sendOk = true ∧ s.sendMessage c m = .next { s with
        fxPkt := pack c x.cin x.bytes, txState := .fixedInflight, held := s.held ++ [⟨.fxPkt, 1⟩]
        out := some ⟨.ok, 0, [], some (pack c x.cin x.bytes).bytes⟩ }) ∨
      (s.txState = .idle ∧ s.pins.sendOk = false ∧ s.sendMessage c m = .next { s with
        fxPkt := pack c x.cin x.bytes
        out := some ⟨.transportFailure, 0, [], some (pack c x.cin x.bytes).bytes⟩ })) := by
  simp only [State.sendMessage, State.cableOk, State.txOccupied]
  by_cases hc : c.toNat < s.params.nCables
  · cases m with
    | none => left; simp [hc, State.refuse, State.reply, State.answer]
    | some x =>
      refine .inr ⟨x, rfl, hc, ?_⟩
      by_cases hi : s.txState = .idle
      · right
        cases hk : s.pins.sendOk
        · right
          simp [hc, hi, hk, State.sendFixed, State.sent, State.answer, State.setFxPkt]
        · left
          simp [hc, hi, hk, State.sendFixed, State.sent, State.answer, State.setFxPkt, State.setTxState, State.hand]
      · left
        simp [hc, hi, State.refuse, State.reply, State.answer]
  · left
    simp [hc, Nat.not_lt.1 hc, State.refuse, State.reply, State.answer]

theorem sendMessage_invalid {s : State} {c : Nibble} {m : Option FixedMessage} (h : s.params.nCables ≤ c.toNat ∨ m = none) :
    s.sendMessage c m = .next { s with out := some ⟨.invalidMessage, 0, [], none⟩ } := by
  rcases sendMessage_cases s c m with ⟨-, h'⟩ | ⟨x, rfl, hc, -⟩
  · exact h'
  · simp at h; omega

theorem sendMessage_busy {s : State} {c : Nibble} (x : FixedMessage) (hc : c.toNat < s.params.nCables)
    (hs : s.txState ≠ .idle) :
    s.sendMessage c (some x) = .next { s with out := some ⟨.sessionBusy, 0, [], none⟩ } := by
  rcases sendMessage_cases s c (some x) with ⟨h, -⟩ | ⟨y, -, -, ⟨-, h⟩ | ⟨h, -⟩ | ⟨h, -⟩⟩
  · simp at h; omega
  · exact h
  · exact absurd h hs
  · exact absurd h hs

theorem sendMessage_sent {s : State} {c : Nibble} (x : FixedMessage) (hc : c.toNat < s.params.nCables)
    (hs : s.txState = .idle) (hk : s.pins.sendOk = true) :
    s.sendMessage c (some x) = .next { s with
      fxPkt := pack c x.cin x.bytes, txState := .fixedInflight, held := s.held ++ [⟨.fxPkt, 1⟩]
      out := some ⟨.ok, 0, [], some (pack c x.cin x.bytes).bytes⟩ } := by
  rcases sendMessage_cases s c (some x) with ⟨h, -⟩ | ⟨y, h, -, ⟨h', -⟩ | ⟨-, -, h'⟩ | ⟨-, h', -⟩⟩
  · simp at h; omega
  · exact absurd hs h'
  · cases h; exact h'
  · rw [hk] at h'; cases h'

theorem sendMessage_notSent {s : State} {c : Nibble} (x : FixedMessage) (hc : c.toNat < s.params.nCables)
    (hs : s.txState = .idle) (hk : s.pins.sendOk = false) :
    s.sendMessage c (some x) = .next { s with
      fxPkt := pack c x.cin x.bytes
      out := some ⟨.transportFailure, 0, [], some (pack c x.cin x.bytes).bytes⟩ } := by
  rcases sendMessage_cases s c (some x) with ⟨h, -⟩ | ⟨y, h, -, ⟨h', -⟩ | ⟨-, h', -⟩ | ⟨-, -, h'⟩⟩
  · simp at h; omega
  · exact absurd hs h'
  · rw [hk] at h'; cases h'
  · cases h; exact h'

/-! ## Fill -/

/-- The packets Fill's loop packs with room for `n`. -/
def fillPackets : Nat → State → List Packet
  | 0, _ => []
  | n + 1, s =>
    encodeSysex s.txCable s.group s.groupFinal :: if s.groupFinal then [] else fillPackets n s.packGroup

@[simp] theorem packetBytes_nil : packetBytes [] = [] := rfl

@[simp] theorem packetBytes_cons (p : Packet) (ps : List Packet) : packetBytes (p :: ps) = p.bytes ++ packetBytes ps := rfl

@[simp] theorem packetBytes_length (ps : List Packet) : (packetBytes ps).length = 4 * ps.length := by
  induction ps with
  | nil => rfl
  | cons p ps ih => simp [ih, Packet.bytes]; omega

theorem fillPackets_length_le (n : Nat) (s : State) : (fillPackets n s).length ≤ n := by
  induction n generalizing s with
  | zero => simp [fillPackets]
  | succ n ih =>
    simp only [fillPackets, List.length_cons]
    split
    · simp
    · have := ih s.packGroup; omega

theorem fillPackets_length_pos {n : Nat} (h : 0 < n) (s : State) : 1 ≤ (fillPackets n s).length := by
  cases n with
  | zero => omega
  | succ n => simp [fillPackets]

/-- What Fill's loop writes, in every state: tx_fill, tx_pos, and in tx_buf the packets it packs and no other byte. -/
theorem fillLoop_spec (n : Nat) (s : State) :
    ∃ (m : Memory) (p : Word32) (final : Bool),
      fillLoop n s = ({ s with txBuf := m, txFill := s.txFill + (fillPackets n s).length, txPos := p }, final) ∧
      (s.txBuf.wf → m.wf) ∧
      (∀ x ∈ m, x ∈ s.txBuf ∨ x.1 < 4 * (s.txFill + (fillPackets n s).length)) ∧
      (∀ a, m.read a =
        if 4 * s.txFill ≤ a ∧ a < 4 * (s.txFill + (fillPackets n s).length) then
          (packetBytes (fillPackets n s))[a - 4 * s.txFill]?
        else s.txBuf.read a) ∧
      (final = false → (fillPackets n s).length = n) := by
  induction n generalizing s with
  | zero =>
    refine ⟨s.txBuf, s.txPos, false, rfl, id, fun x hx => .inl hx, fun a => ?_, fun _ => rfl⟩
    rw [if_neg]
    simp [fillPackets]
  | succ n ih =>
    have hr : ∀ a, s.packGroup.txBuf.read a = if 4 * s.txFill ≤ a ∧ a < 4 * s.txFill + 4 then
        (encodeSysex s.txCable s.group s.groupFinal).bytes[a - 4 * s.txFill]? else s.txBuf.read a :=
      fun a => Memory.read_writePacket _ _ _ a
    have hw : s.txBuf.wf → s.packGroup.txBuf.wf := fun h => Memory.wf_writePacket h _ _
    have hm : ∀ x ∈ s.packGroup.txBuf, x ∈ s.txBuf ∨ x.1 < 4 * (s.txFill + 1) := fun x hx => by
      rcases Memory.mem_writePacket hx with h | h
      · right; omega
      · exact .inl h
    by_cases hf : s.groupFinal = true
    · refine ⟨s.packGroup.txBuf, s.packGroup.txPos, true, ?_, hw, ?_, ?_, by simp⟩
      · simp [fillLoop, fillPackets, hf, State.packGroup, State.putPacket]
      · simpa [fillPackets, hf] using hm
      · intro a
        rw [hr]
        simp [fillPackets, hf, Nat.mul_add]
    · obtain ⟨m, p, final, h1, h2, h3, h4, h5⟩ := ih s.packGroup
      have hfill : s.packGroup.txFill = s.txFill + 1 := rfl
      have hlen : (fillPackets (n + 1) s).length = (fillPackets n s.packGroup).length + 1 := by
        simp [fillPackets, hf]
      refine ⟨m, p, final, ?_, fun h => h2 (hw h), fun x hx => ?_, fun a => ?_, fun h => ?_⟩
      · simp only [fillLoop, hf, Bool.false_eq_true, if_false, h1, hlen, hfill]
        simp [State.packGroup, State.putPacket, Nat.add_assoc, Nat.add_comm 1]
      · rcases h3 x hx with h | h
        · rcases hm x h with h | h
          · exact .inl h
          · right; omega
        · right; rw [hfill] at h; omega
      · rw [h4, hr, hlen, hfill]
        have hc : packetBytes (fillPackets (n + 1) s)
            = (encodeSysex s.txCable s.group s.groupFinal).bytes ++ packetBytes (fillPackets n s.packGroup) := by
          simp [fillPackets, hf]
        rw [hc]
        have h4' : (encodeSysex s.txCable s.group s.groupFinal).bytes.length = 4 := rfl
        split
        · rw [if_pos (by omega), List.getElem?_append_right (by omega), h4']
          congr 1
        · split
          · rw [if_pos (by omega), List.getElem?_append_left (by omega)]
          · rw [if_neg (by omega)]
      · rw [hlen, h5 h]

theorem packGroup_frame (s : State) :
    s.packGroup.txLen = s.txLen ∧ s.packGroup.txCable = s.txCable ∧ s.packGroup.txSrc = s.txSrc ∧
    s.packGroup.srcMem = s.srcMem ∧ s.packGroup.draws = s.draws := ⟨rfl, rfl, rfl, rfl, rfl⟩

theorem packGroup_txPos (s : State) (h : s.txPos.toNat ≤ s.txLen.toNat) :
    s.packGroup.txPos.toNat = s.txPos.toNat + s.groupLen := by
  have h1 := s.txLen.isLt
  have h2 : s.groupLen ≤ s.txLen.toNat - s.txPos.toNat := Nat.min_le_right _ _
  show (s.txPos + BitVec.ofNat 32 s.groupLen).toNat = _
  rw [BitVec.toNat_add, BitVec.toNat_ofNat, Nat.mod_eq_of_lt (by omega : s.groupLen < 2 ^ 32),
    Nat.mod_eq_of_lt (by omega)]

/-- Where Fill's loop stops while bytes are left: after `n` packets of three bytes, or at the end of the stream. -/
theorem fillLoop_stops {n : Nat} {s : State} (hn : 0 < n) (h : s.txPos.toNat < s.txLen.toNat) :
    (fillLoop n s).1.txPos.toNat = min s.txLen.toNat (s.txPos.toNat + 3 * n) ∧
    (fillLoop n s).2 = decide (s.txLen.toNat ≤ s.txPos.toNat + 3 * n) ∧
    (fillPackets n s).length = min n ((s.txLen.toNat - s.txPos.toNat + 2) / 3) := by
  induction n generalizing s with
  | zero => omega
  | succ n ih =>
    have hp := packGroup_txPos s (Nat.le_of_lt h)
    have hk : s.groupLen = min 3 (s.txLen.toNat - s.txPos.toNat) := rfl
    by_cases hf : s.groupFinal = true
    · have hf' : s.txPos.toNat + s.groupLen = s.txLen.toNat := by simpa [State.groupFinal] using hf
      simp only [fillLoop, fillPackets, hf, if_true, hp]
      refine ⟨by omega, ?_, ?_⟩
      · symm; rw [decide_eq_true_eq]; omega
      · simp only [List.length_cons, List.length_nil]; omega
    · have hf' : s.txPos.toNat + s.groupLen ≠ s.txLen.toNat := by simpa [State.groupFinal] using hf
      rcases Nat.eq_zero_or_pos n with rfl | hn'
      · simp only [fillLoop, fillPackets, hf, Bool.false_eq_true, if_false, hp]
        refine ⟨by omega, ?_, ?_⟩
        · symm; rw [decide_eq_false_iff_not]; omega
        · simp only [List.length_cons, List.length_nil]; omega
      · obtain ⟨h1, h2, h3⟩ := ih (s := s.packGroup) hn' (by rw [hp]; show _ < s.txLen.toNat; omega)
        simp only [fillLoop, fillPackets, hf, Bool.false_eq_true, if_false]
        rw [h1, h2]
        simp only [List.length_cons, h3, hp, (packGroup_frame s).1]
        refine ⟨by omega, ?_, by omega⟩
        rw [decide_eq_decide]; omega

/-- The packets of a Fill, in every state. -/
abbrev State.filled (s : State) : List Packet := fillPackets s.params.cap s.startFill

theorem Params.cap_pos (p : Params) : 0 < p.cap := Nat.succ_pos _

theorem State.filled_length (s : State) : 1 ≤ s.filled.length ∧ s.filled.length ≤ s.params.cap :=
  ⟨fillPackets_length_pos (Params.cap_pos _) _, fillPackets_length_le _ _⟩

/-- Fill answers a next state in every state: it writes tx_fill, tx_pos and the packets it packs, sends them, and sets tx_state
and tx_last_result from the transport's answer. -/
theorem fill_spec (s : State) :
    ∃ (m : Memory) (p : Word32) (final : Bool),
      s.fill = .next (if s.pins.sendOk then { s with
          txBuf := m, txFill := s.filled.length, txPos := p, draws := s.draws + 1
          txState := if final then .sxWaitLast else .sxWaitMid
          held := s.held ++ [⟨.txBuf, s.filled.length⟩]
          out := some ⟨.ok, 0, [], some (packetBytes s.filled)⟩ }
        else { s with
          txBuf := m, txFill := s.filled.length, txPos := p, draws := s.draws + 1
          txState := .idle, txLastResult := .transportFailure
          out := some ⟨.transportFailure, 0, [], some (packetBytes s.filled)⟩ }) ∧
      (s.txBuf.wf → m.wf) ∧
      (∀ x ∈ m, x ∈ s.txBuf ∨ x.1 < 4 * s.filled.length) ∧
      (∀ a, m.read a = if a < 4 * s.filled.length then (packetBytes s.filled)[a]? else s.txBuf.read a) ∧
      (final = false → s.filled.length = s.params.cap) ∧
      (s.txPos.toNat < s.txLen.toNat →
        p.toNat = min s.txLen.toNat (s.txPos.toNat + 3 * s.params.cap) ∧
        final = decide (s.txLen.toNat ≤ s.txPos.toNat + 3 * s.params.cap) ∧
        s.filled.length = min s.params.cap ((s.txLen.toNat - s.txPos.toNat + 2) / 3)) := by
  obtain ⟨m, p, final, h1, h2, h3, h4, h5⟩ := fillLoop_spec s.params.cap s.startFill
  have h0 : s.startFill.txFill = 0 := rfl
  simp only [h0, Nat.zero_add, Nat.mul_zero, Nat.zero_le, true_and, Nat.sub_zero] at h1 h3 h4
  have hb : m.readBytes 0 (4 * s.filled.length) = some (packetBytes s.filled) := by
    rw [← packetBytes_length]
    refine Memory.readBytes_eq_some fun j hj => ?_
    rw [Nat.zero_add, h4, if_pos (by rwa [packetBytes_length] at hj), List.getElem?_eq_getElem hj]
  refine ⟨m, p, final, ?_, h2, h3, h4, h5, fun h => ?_⟩
  · rw [State.fill, h1]
    simp only [State.flush, hb]
    have hk : s.startFill.pins = s.pins := rfl
    cases h : s.pins.sendOk <;> simp only [hk, h, Bool.false_eq_true, if_true, if_false] <;> rfl
  · obtain ⟨e1, e2, e3⟩ := fillLoop_stops (s := s.startFill) (Params.cap_pos s.params) h
    rw [h1] at e1 e2
    exact ⟨e1, e2, e3⟩

/-! ## The framed stream -/

/-- Three bytes that are not the last make one packet. -/
theorem sysexPackets_more (c : Nibble) (x y z : Byte) {rest : List Byte} (h : rest ≠ []) :
    sysexPackets c (x :: y :: z :: rest) = encodeSysex c [x, y, z] false :: sysexPackets c rest := by
  cases rest with
  | nil => exact absurd rfl h
  | cons w ws => rfl

/-- The last one to three bytes make one packet. -/
theorem sysexPackets_last (c : Nibble) {g : List Byte} (h1 : g ≠ []) (h3 : g.length ≤ 3) :
    sysexPackets c g = [encodeSysex c g true] := by
  match g with
  | [] => exact absurd rfl h1
  | [_] => rfl
  | [_, _] => rfl
  | [_, _, _] => rfl
  | _ :: _ :: _ :: _ :: _ => simp only [List.length_cons] at h3; omega

theorem sysexPackets_length (c : Nibble) (bs : List Byte) : (sysexPackets c bs).length = (bs.length + 2) / 3 := by
  induction bs using sysexPackets.induct with
  | case1 => rfl
  | case2 => simp [sysexPackets]
  | case3 => simp [sysexPackets]
  | case4 => simp [sysexPackets]
  | case5 x y z rest hr ih =>
    rw [sysexPackets_more _ _ _ _ (by simpa using hr)]
    simp only [List.length_cons, ih]
    omega

/-- While bytes of a stream are left, Fill packs the next packets of it. -/
theorem fillPackets_stream {S : List Byte} (n : Nat) {s : State} (hl : S.length = s.txLen.toNat)
    (hb : ∀ i, i < S.length → S[i]? = some (s.framedByte i)) (hp : s.txPos.toNat < s.txLen.toNat) :
    fillPackets n s = (sysexPackets s.txCable (S.drop s.txPos.toNat)).take n := by
  induction n generalizing s with
  | zero => rfl
  | succ n ih =>
    have hk : s.groupLen = min 3 (s.txLen.toNat - s.txPos.toNat) := rfl
    have hg : s.group = (S.drop s.txPos.toNat).take s.groupLen := by
      refine List.ext_getElem (by simp [State.group]; omega) fun j h1 h2 => ?_
      simp only [State.group, List.length_map, List.length_range] at h1
      have := hb (s.txPos.toNat + j) (by omega)
      rw [List.getElem?_eq_getElem (by omega)] at this
      simpa [State.group] using (Option.some.inj this).symm
    by_cases hf : s.groupFinal = true
    · have hf' : s.txPos.toNat + s.groupLen = s.txLen.toNat := by simpa [State.groupFinal] using hf
      have hd : S.drop s.txPos.toNat = s.group := by
        rw [hg, List.take_of_length_le]; simp; omega
      have hgl : s.group.length = s.groupLen := by simp [State.group]
      rw [hd, sysexPackets_last _ (by intro h; rw [h] at hgl; simp at hgl; omega) (by omega)]
      simp [fillPackets, hf]
    · have hf' : s.txPos.toNat + s.groupLen ≠ s.txLen.toNat := by simpa [State.groupFinal] using hf
      have h3 : s.groupLen = 3 := by omega
      have hpos := packGroup_txPos s (Nat.le_of_lt hp)
      have e : S.drop s.txPos.toNat = s.group ++ S.drop (s.txPos.toNat + 3) := by
        rw [hg, h3, ← List.drop_drop, List.take_append_drop]
      have hgl : s.group.length = 3 := by simp [State.group, h3]
      obtain ⟨x, y, z, hxyz⟩ := List.length_eq_three.1 hgl
      have hi := ih (s := s.packGroup) hl hb (by rw [hpos]; show _ < s.txLen.toNat; omega)
      rw [hpos, h3] at hi
      rw [e, hxyz]
      simp only [List.cons_append, List.nil_append]
      rw [sysexPackets_more _ _ _ _ (by simp; omega)]
      simp only [fillPackets, hf, Bool.false_eq_true, if_false, List.take_succ_cons, hi, hxyz]
      rfl

/-- The bytes Fill reads are the framed stream of the payload that stands in the bound source memory. -/
theorem framedByte_stream {payload : List Byte} {s : State} {base : Nat} (hl : s.txLen.toNat = payload.length + 2)
    (hs : s.txSrc = some base) (hm : ∀ k, k < payload.length → s.srcMem.read (base + k) = payload[k]?) (i : Nat)
    (hi : i < (framedStream payload).length) : (framedStream payload)[i]? = some (s.framedByte i) := by
  have hi' : i < payload.length + 2 := by simp [framedStream] at hi; omega
  simp only [State.framedByte]
  split
  · subst i; rfl
  · rename_i h0
    obtain ⟨k, rfl⟩ : ∃ k, i = k + 1 := ⟨i - 1, by omega⟩
    split
    · have : k = payload.length := by omega
      subst this
      simp [framedStream]
    · have hk : k < payload.length := by omega
      have hr := hm k hk
      simp only [framedStream, List.getElem?_cons_succ, List.getElem?_append_left hk, Nat.add_sub_cancel,
        State.srcRead, hs, Option.getD_some]
      rw [List.getElem?_eq_getElem hk] at hr ⊢
      rw [hr]

/-! ## The transmit commands -/

theorem execTxSysex_invalid {c : Nibble} {n : Word32} {s : State}
    (h : s.params.nCables ≤ c.toNat ∨ 2 ^ 32 - 3 < n.toNat) :
    execTxSysex c n s = .next { s with out := some ⟨.invalidMessage, 0, [], none⟩ } := by
  rw [execTxSysex, if_pos]
  · rfl
  · simp only [State.cableOk, Bool.or_eq_true, Bool.not_eq_true', decide_eq_false_iff_not, decide_eq_true_eq]
    omega

theorem execTxSysex_busy {c : Nibble} {n : Word32} {s : State} (hc : c.toNat < s.params.nCables)
    (hn : n.toNat ≤ 2 ^ 32 - 3) (hs : s.txState ≠ .idle) :
    execTxSysex c n s = .next { s with out := some ⟨.sessionBusy, 0, [], none⟩ } := by
  rw [execTxSysex, if_neg, if_pos]
  · rfl
  · simpa [State.txOccupied] using hs
  · simp only [State.cableOk, Bool.or_eq_true, Bool.not_eq_true', decide_eq_false_iff_not, decide_eq_true_eq]
    omega

theorem execTxSysex_fills {c : Nibble} {n : Word32} {s : State} (hc : c.toNat < s.params.nCables)
    (hn : n.toNat ≤ 2 ^ 32 - 3) (hs : s.txState = .idle) :
    execTxSysex c n s = (s.openSession c (n + 2) s.pins.src).fill := by
  rw [execTxSysex, if_neg, if_neg]
  · simpa [State.txOccupied] using hs
  · simp only [State.cableOk, Bool.or_eq_true, Bool.not_eq_true', decide_eq_false_iff_not, decide_eq_true_eq]
    omega

theorem execTxComplete_idle {s : State} (h : s.txState = .idle) :
    execTxComplete s = .next { s with held := s.held.tail, out := some ⟨.ok, 0, [], none⟩ } := by
  simp [execTxComplete, h, State.release, State.reply, State.answer]

theorem execTxComplete_fixed {s : State} (h : s.txState = .fixedInflight) :
    execTxComplete s
      = .next { s with txState := .idle, held := s.held.tail, out := some ⟨.ok, 0, [], none⟩ } := by
  simp [execTxComplete, h, State.release, State.reply, State.answer, State.setTxState]

theorem execTxComplete_last {s : State} (h : s.txState = .sxWaitLast) :
    execTxComplete s = .next { s with
      txState := .idle, txLastResult := .ok, held := s.held.tail, out := some ⟨.ok, 0, [], none⟩ } := by
  simp [execTxComplete, h, State.release, State.reply, State.answer, State.setTxState, State.setLastResult]

theorem execTxComplete_mid {s : State} (h : s.txState = .sxWaitMid) :
    execTxComplete s = State.fill { s with held := s.held.tail } := by
  simp [execTxComplete, h, State.release]

/-- EncodeFixed of a channel-voice byte. -/
theorem encodeFixed_channel {len : Nat} {b0 b1 b2 : Byte} (h : 0x80 ≤ b0 ∧ b0 ≤ 0xEF) (hl : len ≠ 0) :
    encodeFixed len b0 b1 b2 =
      if len = (if (b0.extractLsb' 4 4 : Nibble) = 0xC ∨ (b0.extractLsb' 4 4 : Nibble) = 0xD then 2 else 3) then
        some (b0.extractLsb' 4 4)
      else none := by
  rw [encodeFixed, if_neg hl, if_pos h]

/-- EncodeFixed of a data byte. -/
theorem encodeFixed_data {len : Nat} {b0 b1 b2 : Byte} (h : b0 < 0x80) : encodeFixed len b0 b1 b2 = none := by
  have : ¬(0x80 ≤ b0 ∧ b0 ≤ 0xEF) ∧ b0 ≠ 0xF0 ∧ ¬(b0 = 0xF1 ∨ b0 = 0xF3) ∧ b0 ≠ 0xF2 ∧ b0 ≠ 0xF6 ∧ ¬0xF8 ≤ b0 := by
    revert b0; decide
  obtain ⟨h1, h2, h3, h4, h5, h6⟩ := this
  rw [encodeFixed, if_neg h1, if_neg h2, if_neg h3, if_neg h4, if_neg h5, if_neg h6]
  split <;> rfl

/-- EncodeFixed of a real-time byte. -/
theorem encodeFixed_realtime {len : Nat} {b0 b1 b2 : Byte} (h : 0xF8 ≤ b0) :
    encodeFixed len b0 b1 b2 = if len = 1 then some 0x5 else none := by
  have : ¬(0x80 ≤ b0 ∧ b0 ≤ 0xEF) ∧ b0 ≠ 0xF0 ∧ ¬(b0 = 0xF1 ∨ b0 = 0xF3) ∧ b0 ≠ 0xF2 ∧ b0 ≠ 0xF6 := by
    revert b0; decide
  obtain ⟨h1, h2, h3, h4, h5⟩ := this
  rw [encodeFixed, if_neg h1, if_neg h2, if_neg h3, if_neg h4, if_neg h5, if_pos h]
  split
  · subst len; rfl
  · rfl

/-- The high nibble of a channel-voice byte, as EncodeFixed's CIN. -/
theorem channel_cin (b0 : Byte) (h : 0x80 ≤ b0 ∧ b0 ≤ 0xEF) :
    let hi : Nibble := b0.extractLsb' 4 4
    cinCount hi = (if hi = 0xC ∨ hi = 0xD then 2 else 3) ∧ hi ≠ 0x0 ∧ hi ≠ 0x1 ∧ hi ≠ 0xF ∧ hi ≠ 0x4 := by
  revert b0; decide

/-- The CINs EncodeFixed gives, and the length each one has. -/
theorem encodeFixed_cin {len : Nat} {b0 b1 b2 : Byte} {cin : Nibble} (hl : len ≤ 3)
    (h : encodeFixed len b0 b1 b2 = some cin) :
    cinCount cin = len ∧ cin ≠ 0x0 ∧ cin ≠ 0x1 ∧ cin ≠ 0xF ∧ cin ≠ 0x4 := by
  simp only [encodeFixed] at h
  by_cases hc : 0x80 ≤ b0 ∧ b0 ≤ 0xEF
  · obtain ⟨h1, h2⟩ := channel_cin b0 hc
    rw [if_pos hc, ← h1] at h
    split at h
    · cases h
    · split at h
      · rename_i he
        cases h
        exact ⟨he.symm, h2⟩
      · cases h
  · rw [if_neg hc] at h
    split_ifs at h <;> simp only [Option.some.injEq] at h <;> subst h <;> try (subst len; decide)
    interval_cases len <;> first | decide | omega

/-- Every transmit command but the two of a sysex session is a fixed message, of as many bytes as its CIN counts. -/
theorem exec_fixed {i : Instr} (h : pathOf i = .transmit) (h1 : i ≠ .txComplete) (h2 : ∀ c n, i ≠ .txSysex c n) :
    ∃ (c : Nibble) (m : Option FixedMessage), (∀ s, exec i s = s.sendMessage c m) ∧
      ∀ x ∈ m, x.bytes.length = cinCount x.cin ∧ x.cin ≠ 0x0 ∧ x.cin ≠ 0x1 ∧ x.cin ≠ 0xF := by
  cases i <;> simp only [pathOf, reduceCtorEq, ne_eq, not_true_eq_false] at h h1
  case txSysex c n => exact absurd rfl (h2 c n)
  case txFixed c len b0 b1 b2 =>
    refine ⟨c, _, fun s => rfl, fun x hx => ?_⟩
    simp only [fixedMessage, Option.mem_def, Option.map_eq_some_iff] at hx
    obtain ⟨cin, he, rfl⟩ := hx
    have := encodeFixed_cin (by omega) he
    refine ⟨?_, this.2.1, this.2.2.1, this.2.2.2.1⟩
    rw [this.1]
    simp; omega
  case stSysexComplete2 c b1 =>
    refine ⟨c, _, fun s => rfl, fun x hx => ?_⟩
    split at hx
    · cases hx; exact ⟨rfl, by simp⟩
    · cases hx
  case stSysexComplete3 c b1 b2 =>
    refine ⟨c, _, fun s => rfl, fun x hx => ?_⟩
    split at hx
    · cases hx; exact ⟨rfl, by simp⟩
    · cases hx
  case stInvalidData => exact ⟨0, none, fun s => (sendMessage_invalid (.inr rfl)).symm, by simp⟩
  case stInvalidUndefined => exact ⟨0, none, fun s => (sendMessage_invalid (.inr rfl)).symm, by simp⟩
  case stInvalidEox => exact ⟨0, none, fun s => (sendMessage_invalid (.inr rfl)).symm, by simp⟩
  all_goals exact ⟨_, some _, fun s => rfl, fun x hx => by cases hx; exact ⟨rfl, by simp⟩⟩

end Sys2Proof.Machine
end

