-- ==== Sys2Proof/Laws/Step.lean ====
section
/-! SUPPORT. The kinds of commands, for a case split over all of them, and what a step does. -/

namespace Sys2Proof.Machine

theorem exec_read (idx : Byte) (s : State) :
    exec (.read idx) s = .next { s with out := some ⟨.ok, s.regValue idx, [], none⟩ } := rfl

theorem exec_reset (s : State) :
    exec .reset s = .next { State.resetWith s.params with
      queue := s.queue, pins := s.pins, out := some ⟨.ok, 0, [], none⟩, held := s.held, srcMem := s.srcMem
      draws := s.draws } := rfl

/-- Every command is a receive command, a fixed message, TX_SYSEX, TX_COMPLETE, READ, RESET or a reserved one. -/
theorem exec_cases (i : Instr) (s : State) :
    (pathOf i = .receive ∧ ReceiveAnswer s (exec i s)) ∨
    (pathOf i = .transmit ∧ i ≠ .txComplete ∧ ∀ c n, i ≠ .txSysex c n) ∨
    (∃ c n, i = .txSysex c n) ∨ i = .txComplete ∨ (∃ idx, i = .read idx) ∨ i = .reset ∨
    (pathOf i = .control ∧ i ≠ .reset ∧ (∀ idx, i ≠ .read idx) ∧
      exec i s = .next { s with out := some ⟨.invalidMessage, 0, [], none⟩ }) := by
  cases hp : pathOf i with
  | receive => exact .inl ⟨rfl, exec_receive hp s⟩
  | transmit =>
    right
    by_cases h1 : i = .txComplete
    · exact .inr (.inr (.inl h1))
    · by_cases h2 : ∃ c n, i = .txSysex c n
      · exact .inr (.inl h2)
      · exact .inl ⟨rfl, h1, fun c n h => h2 ⟨c, n, h⟩⟩
  | control =>
    right; right; right; right
    cases i <;> simp only [pathOf, reduceCtorEq] at hp
    case read idx => exact .inl ⟨idx, rfl⟩
    case reset => exact .inr (.inl rfl)
    all_goals exact .inr (.inr ⟨rfl, by simp, by simp, rfl⟩)

theorem step_pending {s : State} {i : StepInput} {rest : List StepInput} (h : s.queue = i :: rest) :
    step s = exec (decode i.cmd) (s.accept i rest) := by
  simp only [step, h]

theorem step_idle {s : State} (h : s.queue = []) : step s = .next s.idle := by
  simp only [step, h]

end Sys2Proof.Machine
end

