-- ==== Sys2Proof/Laws/Effect.lean ====
section
/-! SUPPORT. Everything a command can do, said once: the next state of `exec` is one of the forms of `Effect`. Later
proofs split on it and unfold no meaning. -/

namespace Sys2Proof.Machine

/-- The transfers a Fill answers with (42_transmit.md R227, R228). -/
inductive FillEffect (s : State) : State → Prop
  | accepted (m : Memory) (p : Word32) (final : Bool)
      (sendOk : s.pins.sendOk = true)
      (bytes : ∀ a, m.read a = if a < 4 * s.filled.length then (packetBytes s.filled)[a]? else s.txBuf.read a) :
      FillEffect s { s with
        txBuf := m, txFill := s.filled.length, txPos := p, draws := s.draws + 1
        txState := if final then .sxWaitLast else .sxWaitMid
        held := s.held ++ [⟨.txBuf, s.filled.length⟩]
        out := some ⟨.ok, 0, [], some (packetBytes s.filled)⟩ }
  | refused (m : Memory) (p : Word32)
      (sendOk : s.pins.sendOk = false)
      (bytes : ∀ a, m.read a = if a < 4 * s.filled.length then (packetBytes s.filled)[a]? else s.txBuf.read a) :
      FillEffect s { s with
        txBuf := m, txFill := s.filled.length, txPos := p, draws := s.draws + 1
        txState := .idle, txLastResult := .transportFailure
        out := some ⟨.transportFailure, 0, [], some (packetBytes s.filled)⟩ }

theorem fill_effect {s t : State} (h : s.fill = .next t) : FillEffect s t := by
  obtain ⟨m, p, f, h1, -, -, h4, -⟩ := fill_spec s
  rw [h1] at h
  cases hk : s.pins.sendOk <;> rw [hk] at h <;> cases h
  · exact .refused m p hk h4
  · exact .accepted m p f hk h4

/-- The next states of a command. -/
inductive Effect (i : Instr) (s : State) : State → Prop
  /-- A receive command: it may write the receive registers, answers OK, and emits at most three events. -/
  | receive (v : Vector RxSession 16) (m n : Word32) (es : List Event)
      (path : pathOf i = .receive) (few : es.length ≤ 3)
      (short : ∀ c d, Event.message c d ∈ es ∨ Event.sysexData c d ∈ es → 1 ≤ d.length ∧ d.length ≤ 3) :
      Effect i s { s with rx := v, rxReservedCount := m, rxDiscardCount := n, out := some ⟨.ok, 0, es, none⟩ }
  /-- A command turned away writes nothing. -/
  | turnedAway (r : Result) (which : r = .invalidMessage ∨ r = .sessionBusy)
      (busy : r = .sessionBusy → pathOf i = .transmit) (path : pathOf i ≠ .receive)
      (notComplete : i ≠ .txComplete) (notReset : i ≠ .reset) (notRead : ∀ idx, i ≠ .read idx) :
      Effect i s { s with out := some ⟨r, 0, [], none⟩ }
  /-- A fixed message is sent and accepted. -/
  | fixedSent (c : Nibble) (x : FixedMessage)
      (path : pathOf i = .transmit) (notComplete : i ≠ .txComplete) (notSysex : ∀ c n, i ≠ .txSysex c n)
      (idle : s.txState = .idle) (cable : c.toNat < s.params.nCables)
      (message : x.bytes.length = cinCount x.cin ∧ x.cin ≠ 0x0 ∧ x.cin ≠ 0x1 ∧ x.cin ≠ 0xF)
      (sendOk : s.pins.sendOk = true) :
      Effect i s { s with
        fxPkt := pack c x.cin x.bytes, txState := .fixedInflight, held := s.held ++ [⟨.fxPkt, 1⟩]
        out := some ⟨.ok, 0, [], some (pack c x.cin x.bytes).bytes⟩ }
  /-- A fixed message is sent and the transport refuses it. -/
  | fixedRefused (c : Nibble) (x : FixedMessage)
      (path : pathOf i = .transmit) (notComplete : i ≠ .txComplete) (notSysex : ∀ c n, i ≠ .txSysex c n)
      (idle : s.txState = .idle) (cable : c.toNat < s.params.nCables)
      (message : x.bytes.length = cinCount x.cin ∧ x.cin ≠ 0x0 ∧ x.cin ≠ 0x1 ∧ x.cin ≠ 0xF)
      (sendOk : s.pins.sendOk = false) :
      Effect i s { s with
        fxPkt := pack c x.cin x.bytes
        out := some ⟨.transportFailure, 0, [], some (pack c x.cin x.bytes).bytes⟩ }
  /-- A spurious completion. -/
  | spurious (cmd : i = .txComplete) (idle : s.txState = .idle) :
      Effect i s { s with held := s.held.tail, out := some ⟨.ok, 0, [], none⟩ }
  /-- The end of a fixed transfer. -/
  | fixedDone (cmd : i = .txComplete) (inflight : s.txState = .fixedInflight) :
      Effect i s { s with txState := .idle, held := s.held.tail, out := some ⟨.ok, 0, [], none⟩ }
  /-- The end of a session. -/
  | sessionDone (cmd : i = .txComplete) (last : s.txState = .sxWaitLast) :
      Effect i s { s with
        txState := .idle, txLastResult := .ok, held := s.held.tail, out := some ⟨.ok, 0, [], none⟩ }
  /-- A completion that resumes packing. -/
  | resumed (t : State) (cmd : i = .txComplete) (mid : s.txState = .sxWaitMid)
      (fill : FillEffect { s with held := s.held.tail } t) : Effect i s t
  /-- A session that opens. -/
  | opened (t : State) (c : Nibble) (n : Word32) (cmd : i = .txSysex c n)
      (cable : c.toNat < s.params.nCables) (len : n.toNat ≤ 2 ^ 32 - 3) (idle : s.txState = .idle)
      (fill : FillEffect (s.openSession c (n + 2) s.pins.src) t) : Effect i s t
  | read (idx : Byte) (cmd : i = .read idx) : Effect i s { s with out := some ⟨.ok, s.regValue idx, [], none⟩ }
  | reset (cmd : i = .reset) :
      Effect i s { State.resetWith s.params with
        queue := s.queue, pins := s.pins, out := some ⟨.ok, 0, [], none⟩, held := s.held, srcMem := s.srcMem
        draws := s.draws }

theorem fixed_effect {i : Instr} (h0 : pathOf i = .transmit) (h1 : i ≠ .txComplete) (h2 : ∀ c n, i ≠ .txSysex c n)
    {s t : State} (h : exec i s = .next t) : Effect i s t := by
  have hr : i ≠ .reset := by rintro rfl; simp [pathOf] at h0
  have hd : ∀ idx, i ≠ .read idx := by rintro _ rfl; simp [pathOf] at h0
  obtain ⟨c, m, e, hm⟩ := exec_fixed h0 h1 h2
  rw [e] at h
  rcases sendMessage_cases s c m with ⟨-, e⟩ | ⟨x, hx, hc, ⟨-, e⟩ | ⟨hs, hk, e⟩ | ⟨hs, hk, e⟩⟩ <;> rw [e] at h <;> cases h
  · exact .turnedAway _ (.inl rfl) (fun _ => h0) (by simp [h0]) h1 hr hd
  · exact .turnedAway _ (.inr rfl) (fun _ => h0) (by simp [h0]) h1 hr hd
  · exact .fixedSent c x h0 h1 h2 hs hc (hm x hx) hk
  · exact .fixedRefused c x h0 h1 h2 hs hc (hm x hx) hk

theorem txSysex_effect {c : Nibble} {n : Word32} {s t : State} (h : exec (.txSysex c n) s = .next t) :
    Effect (.txSysex c n) s t := by
  by_cases g1 : s.params.nCables ≤ c.toNat ∨ 2 ^ 32 - 3 < n.toNat
  · rw [show exec (.txSysex c n) s = _ from execTxSysex_invalid g1] at h
    cases h
    exact .turnedAway _ (.inl rfl) (fun _ => rfl) (by simp [pathOf]) (by simp) (by simp) (by simp)
  · by_cases g2 : s.txState = .idle
    · rw [show exec (.txSysex c n) s = _ from execTxSysex_fills (by omega) (by omega) g2] at h
      exact .opened _ c n rfl (by omega) (by omega) g2 (fill_effect h)
    · rw [show exec (.txSysex c n) s = _ from execTxSysex_busy (by omega) (by omega) g2] at h
      cases h
      exact .turnedAway _ (.inr rfl) (fun _ => rfl) (by simp [pathOf]) (by simp) (by simp) (by simp)

theorem txComplete_effect {s t : State} (h : exec .txComplete s = .next t) : Effect .txComplete s t := by
  cases hs : s.txState with
  | idle =>
    rw [show exec .txComplete s = _ from execTxComplete_idle hs] at h
    cases h
    exact .spurious rfl hs
  | fixedInflight =>
    rw [show exec .txComplete s = _ from execTxComplete_fixed hs] at h
    cases h
    exact .fixedDone rfl hs
  | sxWaitMid =>
    rw [show exec .txComplete s = _ from execTxComplete_mid hs] at h
    exact .resumed _ rfl hs (fill_effect h)
  | sxWaitLast =>
    rw [show exec .txComplete s = _ from execTxComplete_last hs] at h
    cases h
    exact .sessionDone rfl hs

/-- Every command that answers a next state has one of the effects. -/
theorem exec_effect {i : Instr} {s t : State} (h : exec i s = .next t) : Effect i s t := by
  rcases exec_cases i s with ⟨hp, v, m, n, es, e, few, short, -⟩ | ⟨h0, h1, h2⟩ | ⟨c, n, rfl⟩ | rfl | ⟨idx, rfl⟩ | rfl |
    ⟨hp, hr, hd, e⟩
  · rw [e] at h
    cases h
    exact .receive v m n es hp few short
  · exact fixed_effect h0 h1 h2 h
  · exact txSysex_effect h
  · exact txComplete_effect h
  · cases h
    exact .read idx rfl
  · cases h
    exact .reset rfl
  · rw [e] at h
    cases h
    refine .turnedAway _ (.inl rfl) (fun h => by cases h) (by simp [hp]) ?_ hr hd
    rintro rfl
    simp [pathOf] at hp

/-! ## The two sides of a packet -/

/-- The elapsed time of a session (41_receive.md R187) over the integers. -/
theorem tsTrunc_sub_toNat (p : Params) (a b : Word64) :
    ((tsTrunc p (a - b)).toNat : Int) = ((a.toNat : Int) - b.toNat) % 2 ^ p.tsW := by
  have hw : p.tsW ≤ 64 := p.tsTop.isLt
  obtain ⟨k, hk⟩ : ∃ k, 64 = p.tsW + k := ⟨64 - p.tsW, by omega⟩
  have h64 : (2 : ℕ) ^ 64 = 2 ^ p.tsW * 2 ^ k := by rw [← pow_add, ← hk]
  have hlt := Nat.mod_lt (a - b).toNat (Nat.two_pow_pos p.tsW)
  have hle : 2 ^ p.tsW ≤ 2 ^ 64 := Nat.pow_le_pow_right (by decide) hw
  rw [tsTrunc, BitVec.toNat_ofNat, Nat.mod_eq_of_lt (by omega), BitVec.toNat_sub, Nat.mod_mod_of_dvd _ ⟨_, h64⟩]
  have hb := b.isLt
  push_cast
  rw [Nat.cast_sub (by omega)]
  push_cast
  have hq : (18446744073709551616 : ℤ) = 2 ^ p.tsW * 2 ^ k := by exact_mod_cast h64
  rw [hq, show (2 : ℤ) ^ p.tsW * 2 ^ k - b.toNat + a.toNat = (a.toNat - b.toNat) + 2 ^ p.tsW * 2 ^ k by ring]
  exact Int.add_mul_emod_self_left _ _ _

/-- Every packet of a Fill is a group of one to three bytes, of three where it is not final. -/
theorem fillPackets_mem (n : Nat) (s : State) (hp : s.txPos.toNat < s.txLen.toNat) : ∀ p ∈ fillPackets n s,
    ∃ g final, p = encodeSysex s.txCable g final ∧ 1 ≤ g.length ∧ g.length ≤ 3 ∧ (final = false → g.length = 3) := by
  induction n generalizing s with
  | zero => intro p hp; simp [fillPackets] at hp
  | succ n ih =>
    intro p hm
    have hk : s.groupLen = min 3 (s.txLen.toNat - s.txPos.toNat) := rfl
    have hgl : s.group.length = s.groupLen := by simp [State.group]
    simp only [fillPackets, List.mem_cons] at hm
    rcases hm with rfl | hm
    · refine ⟨s.group, s.groupFinal, rfl, by omega, by omega, fun h => ?_⟩
      have : s.txPos.toNat + s.groupLen ≠ s.txLen.toNat := by simpa [State.groupFinal] using h
      omega
    · split at hm
      · cases hm
      · rename_i hf
        have : s.txPos.toNat + s.groupLen ≠ s.txLen.toNat := by simpa [State.groupFinal] using hf
        have hpp := packGroup_txPos s (Nat.le_of_lt hp)
        exact ih s.packGroup (by rw [hpp]; show _ < s.txLen.toNat; omega) p hm

/-- The packets of a stream from its `m`-th group on. -/
theorem sysexPackets_drop (c : Nibble) (m : Nat) (S : List Byte) (h : 3 * m < S.length) :
    sysexPackets c (S.drop (3 * m)) = (sysexPackets c S).drop m := by
  induction m generalizing S with
  | zero => rfl
  | succ m ih =>
    match S with
    | [] => simp at h
    | [_] => simp only [List.length_cons, List.length_nil] at h; omega
    | [_, _] => simp only [List.length_cons, List.length_nil] at h; omega
    | [_, _, _] => simp only [List.length_cons, List.length_nil] at h; omega
    | x :: y :: z :: w :: rest =>
      have := ih (w :: rest) (by simp at h ⊢; omega)
      rw [show 3 * (m + 1) = 3 * m + 1 + 1 + 1 by omega, List.drop_succ_cons, List.drop_succ_cons, List.drop_succ_cons, this]
      rfl

/-! ## Runs -/

theorem trace_succ {s t : State} (n : Nat) (h : step s = .next t) : trace (n + 1) s = t.out.toList ++ trace n t := by
  simp only [trace, h]

theorem run_succ {s t : State} (n : Nat) (h : step s = .next t) :
    Host.Core.run core (n + 1) s = Host.Core.run core n t := by
  have : core.step s = .next t := h
  simp only [Host.Core.run, this]

end Sys2Proof.Machine
end

