-- ==== Sys2Proof/Laws/Flags.lean ====
section
/-! SUPPORT. The fields of the computed registers of READ are what was packed. -/

namespace Sys2Proof.Machine

/-- The fields of TX_STATUS (10_state.md R53). -/
theorem State.txStatus_fields (s : State) :
    s.txStatus.extractLsb' 0 2 = s.txState.code ∧ s.txStatus.getLsbD 2 = s.busy ∧ s.txStatus.getLsbD 3 = false ∧
    s.txStatus.extractLsb' 4 2 = s.txLastResult.code ∧ s.txStatus.extractLsb' 6 2 = 0 ∧
    s.txStatus.extractLsb' 8 4 = s.txCable ∧ s.txStatus.extractLsb' 12 20 = 0 := by
  have hb (i : Nat) : s.txStatus.getLsbD i =
      if i < 2 then s.txState.code.getLsbD i else if i < 3 then (BitVec.ofBool s.busy).getLsbD (i - 2)
      else if i < 4 then false else if i < 6 then s.txLastResult.code.getLsbD (i - 4)
      else if i < 8 then false else if i < 12 then s.txCable.getLsbD (i - 8) else false := by
    rw [State.txStatus, getLsbD_app (m := 30) (n := 2), getLsbD_app (m := 29) (n := 1), getLsbD_app (m := 28) (n := 1),
      getLsbD_app (m := 26) (n := 2), getLsbD_app (m := 24) (n := 2), getLsbD_app (m := 20) (n := 4)]
    simp only [Nat.sub_sub, BitVec.ofNat_eq_ofNat, BitVec.getLsbD_zero]
    repeat' split
    all_goals first | rfl | omega
  refine ⟨?_, ?_, ?_, ?_, ?_, ?_, ?_⟩
  case refine_2 => rw [hb]; cases s.busy <;> rfl
  case refine_3 => rw [hb]; rfl
  all_goals
    ext i hi
    rw [BitVec.getElem_extractLsb', hb]
    rw [← BitVec.getLsbD_eq_getElem]
    repeat' split
    all_goals first | omega | simp

/-- The fields of CONFIG (R54). -/
theorem configReg_fields (p : Params) :
    ((configReg p).extractLsb' 0 8).toNat = p.nCables ∧ ((configReg p).extractLsb' 8 16).toNat = p.epMax ∧
    ((configReg p).extractLsb' 24 8).toNat = p.tsW := by
  have t1 := p.cableTop.isLt
  have t2 := p.capTop.isLt
  have t3 := p.tsTop.isLt
  have h1 : (configReg p).extractLsb' 0 8 = BitVec.ofNat 8 p.nCables := by
    ext i hi; simp only [configReg, BitVec.getElem_extractLsb']; simp; grind
  have h2 : (configReg p).extractLsb' 8 16 = BitVec.ofNat 16 p.epMax := by
    ext i hi; simp only [configReg, BitVec.getElem_extractLsb']; simp; grind
  have h3 : (configReg p).extractLsb' 24 8 = BitVec.ofNat 8 p.tsW := by
    ext i hi; simp only [configReg, BitVec.getElem_extractLsb']; simp; grind
  rw [h1, h2, h3]
  simp only [BitVec.toNat_ofNat, Params.nCables, Params.epMax, Params.cap, Params.tsW]
  omega

theorem State.rxStateBit_eq (s : State) (c : Nibble) :
    (s.rxStateBit c).getLsbD 0 = decide (c.toNat < s.params.nCables ∧ (s.rxGet c).state = .receiving) := by
  simp only [State.rxStateBit, State.cableOk]
  by_cases h : c.toNat < s.params.nCables
  · cases hs : (s.rxGet c).state <;> simp [h, RxState.code]
  · simp [h]

/-- Bit c of RX_STATE (R52). -/
theorem State.rxStateWord_bit (s : State) (c : Nibble) :
    s.rxStateWord.getLsbD c.toNat = (s.rxStateBit c).getLsbD 0 := by
  rw [State.rxStateWord]
  simp only [getLsbD_app (m := 31) (n := 1), getLsbD_app (m := 30) (n := 1), getLsbD_app (m := 29) (n := 1),
    getLsbD_app (m := 28) (n := 1), getLsbD_app (m := 27) (n := 1), getLsbD_app (m := 26) (n := 1), getLsbD_app
    (m := 25) (n := 1), getLsbD_app (m := 24) (n := 1), getLsbD_app (m := 23) (n := 1), getLsbD_app (m := 22) (n
    := 1), getLsbD_app (m := 21) (n := 1), getLsbD_app (m := 20) (n := 1), getLsbD_app (m := 19) (n := 1),
    getLsbD_app (m := 18) (n := 1), getLsbD_app (m := 17) (n := 1), getLsbD_app (m := 16) (n := 1)]
  rcases nibble_cases c with h | h | h | h | h | h | h | h | h | h | h | h | h | h | h | h <;> subst h <;> rfl

/-- The bits of RX_STATE above 15 (R52). -/
theorem State.rxStateWord_top (s : State) : s.rxStateWord.extractLsb' 16 16 = 0 := by
  ext i hi
  rw [BitVec.getElem_extractLsb', State.rxStateWord, getLsbD_app (m := 31) (n := 1), if_neg (by omega),
    getLsbD_app (m := 30) (n := 1), if_neg (by omega), getLsbD_app (m := 29) (n := 1), if_neg (by omega),
    getLsbD_app (m := 28) (n := 1), if_neg (by omega), getLsbD_app (m := 27) (n := 1), if_neg (by omega),
    getLsbD_app (m := 26) (n := 1), if_neg (by omega), getLsbD_app (m := 25) (n := 1), if_neg (by omega),
    getLsbD_app (m := 24) (n := 1), if_neg (by omega), getLsbD_app (m := 23) (n := 1), if_neg (by omega),
    getLsbD_app (m := 22) (n := 1), if_neg (by omega), getLsbD_app (m := 21) (n := 1), if_neg (by omega),
    getLsbD_app (m := 20) (n := 1), if_neg (by omega), getLsbD_app (m := 19) (n := 1), if_neg (by omega),
    getLsbD_app (m := 18) (n := 1), if_neg (by omega), getLsbD_app (m := 17) (n := 1), if_neg (by omega),
    getLsbD_app (m := 16) (n := 1), if_neg (by omega)]
  simp

end Sys2Proof.Machine
end

