-- ==== Sys2Proof/Laws/PerInstr.lean ====
section
/-! SUPPORT. Statements about every instruction, one lemma per constructor. -/

namespace Sys2Proof.Laws

/-- The encoding of a well-formed instruction is a word of its own row of spec/opcode_table.json. -/
def EncodeFits.Statement (i : Instr) : Prop :=
  i.wf = true →
    match encode i with
    | .word w => ∃ r ∈ cmdRows, r.mnemonic = i.mnemonic ∧ r.fits w = true
    | .frame p => ∃ r ∈ pktRows, r.mnemonic = i.mnemonic ∧ r.fits p = true

theorem EncodeFits.rxFrame (p : Word32) : EncodeFits.Statement (.rxFrame p) := fun _ =>
  ⟨⟨"RX_FRAME", 0xF000000000000000, 0x1000000000000000⟩, by simp [cmdRows, statusRows, opRows], rfl, OpRow.fits_op 0x1 (by decide) (by decide) (fieldOp_cmdWord ..)⟩

theorem EncodeFits.txFixed (cable : Nibble) (len : BitVec 2) (b0 b1 b2 : Byte) : EncodeFits.Statement (.txFixed cable len b0 b1 b2) := fun _ =>
  ⟨⟨"TX_FIXED", 0xF000000000000000, 0x2000000000000000⟩, by simp [cmdRows, statusRows, opRows], rfl, OpRow.fits_op 0x2 (by decide) (by decide) (fieldOp_cmdWord ..)⟩

theorem EncodeFits.txSysex (cable : Nibble) (n : Word32) : EncodeFits.Statement (.txSysex cable n) := fun _ =>
  ⟨⟨"TX_SYSEX", 0xF000000000000000, 0x3000000000000000⟩, by simp [cmdRows, statusRows, opRows], rfl, OpRow.fits_op 0x3 (by decide) (by decide) (fieldOp_cmdWord ..)⟩

theorem EncodeFits.txComplete : EncodeFits.Statement (.txComplete) := fun _ =>
  ⟨⟨"TX_COMPLETE", 0xF000000000000000, 0x4000000000000000⟩, by simp [cmdRows, statusRows, opRows], rfl, OpRow.fits_op 0x4 (by decide) (by decide) (fieldOp_cmdWord ..)⟩

theorem EncodeFits.read (idx : Byte) : EncodeFits.Statement (.read idx) := fun _ =>
  ⟨⟨"READ", 0xF000000000000000, 0x5000000000000000⟩, by simp [cmdRows, statusRows, opRows], rfl, OpRow.fits_op 0x5 (by decide) (by decide) (fieldOp_cmdWord ..)⟩

theorem EncodeFits.reset : EncodeFits.Statement (.reset) := fun _ =>
  ⟨⟨"RESET", 0xF000000000000000, 0x6000000000000000⟩, by simp [cmdRows, statusRows, opRows], rfl, OpRow.fits_op 0x6 (by decide) (by decide) (fieldOp_cmdWord ..)⟩

theorem EncodeFits.reservedOp0 : EncodeFits.Statement (.reservedOp0) := fun _ =>
  ⟨⟨"RESERVED_OP_0", 0xF000000000000000, 0x0000000000000000⟩, by simp [cmdRows, statusRows, opRows], rfl, OpRow.fits_op 0x0 (by decide) (by decide) (fieldOp_cmdWord ..)⟩

theorem EncodeFits.reservedOp7 : EncodeFits.Statement (.reservedOp7) := fun _ =>
  ⟨⟨"RESERVED_OP_7", 0xF000000000000000, 0x7000000000000000⟩, by simp [cmdRows, statusRows, opRows], rfl, OpRow.fits_op 0x7 (by decide) (by decide) (fieldOp_cmdWord ..)⟩

theorem EncodeFits.reservedOp8 : EncodeFits.Statement (.reservedOp8) := fun _ =>
  ⟨⟨"RESERVED_OP_8", 0xF000000000000000, 0x8000000000000000⟩, by simp [cmdRows, statusRows, opRows], rfl, OpRow.fits_op 0x8 (by decide) (by decide) (fieldOp_cmdWord ..)⟩

theorem EncodeFits.reservedOp9 : EncodeFits.Statement (.reservedOp9) := fun _ =>
  ⟨⟨"RESERVED_OP_9", 0xF000000000000000, 0x9000000000000000⟩, by simp [cmdRows, statusRows, opRows], rfl, OpRow.fits_op 0x9 (by decide) (by decide) (fieldOp_cmdWord ..)⟩

theorem EncodeFits.reservedOpA : EncodeFits.Statement (.reservedOpA) := fun _ =>
  ⟨⟨"RESERVED_OP_A", 0xF000000000000000, 0xA000000000000000⟩, by simp [cmdRows, statusRows, opRows], rfl, OpRow.fits_op 0xa (by decide) (by decide) (fieldOp_cmdWord ..)⟩

theorem EncodeFits.reservedOpB : EncodeFits.Statement (.reservedOpB) := fun _ =>
  ⟨⟨"RESERVED_OP_B", 0xF000000000000000, 0xB000000000000000⟩, by simp [cmdRows, statusRows, opRows], rfl, OpRow.fits_op 0xb (by decide) (by decide) (fieldOp_cmdWord ..)⟩

theorem EncodeFits.reservedOpC : EncodeFits.Statement (.reservedOpC) := fun _ =>
  ⟨⟨"RESERVED_OP_C", 0xF000000000000000, 0xC000000000000000⟩, by simp [cmdRows, statusRows, opRows], rfl, OpRow.fits_op 0xc (by decide) (by decide) (fieldOp_cmdWord ..)⟩

theorem EncodeFits.reservedOpD : EncodeFits.Statement (.reservedOpD) := fun _ =>
  ⟨⟨"RESERVED_OP_D", 0xF000000000000000, 0xD000000000000000⟩, by simp [cmdRows, statusRows, opRows], rfl, OpRow.fits_op 0xd (by decide) (by decide) (fieldOp_cmdWord ..)⟩

theorem EncodeFits.reservedOpE : EncodeFits.Statement (.reservedOpE) := fun _ =>
  ⟨⟨"RESERVED_OP_E", 0xF000000000000000, 0xE000000000000000⟩, by simp [cmdRows, statusRows, opRows], rfl, OpRow.fits_op 0xe (by decide) (by decide) (fieldOp_cmdWord ..)⟩

theorem EncodeFits.reservedOpF : EncodeFits.Statement (.reservedOpF) := fun _ =>
  ⟨⟨"RESERVED_OP_F", 0xF000000000000000, 0xF000000000000000⟩, by simp [cmdRows, statusRows, opRows], rfl, OpRow.fits_op 0xf (by decide) (by decide) (fieldOp_cmdWord ..)⟩

theorem EncodeFits.stNoteOff (cable : Nibble) (b0 b1 b2 : Byte) : EncodeFits.Statement (.stNoteOff cable b0 b1 b2) := fun h =>
  ⟨⟨"TX_FIXED.ST_NOTE_OFF", 0xF0000003F0000000, 0x2000000380000000⟩, by simp [cmdRows, statusRows], rfl, OpRow.fits_fixed 3 3 0xf0 0x80 (by decide) (by decide) (by decide) (and_of_inClass h)⟩

theorem EncodeFits.stNoteOn (cable : Nibble) (b0 b1 b2 : Byte) : EncodeFits.Statement (.stNoteOn cable b0 b1 b2) := fun h =>
  ⟨⟨"TX_FIXED.ST_NOTE_ON", 0xF0000003F0000000, 0x2000000390000000⟩, by simp [cmdRows, statusRows], rfl, OpRow.fits_fixed 3 3 0xf0 0x90 (by decide) (by decide) (by decide) (and_of_inClass h)⟩

theorem EncodeFits.stPolyPressure (cable : Nibble) (b0 b1 b2 : Byte) : EncodeFits.Statement (.stPolyPressure cable b0 b1 b2) := fun h =>
  ⟨⟨"TX_FIXED.ST_POLY_PRESSURE", 0xF0000003F0000000, 0x20000003A0000000⟩, by simp [cmdRows, statusRows], rfl, OpRow.fits_fixed 3 3 0xf0 0xa0 (by decide) (by decide) (by decide) (and_of_inClass h)⟩

theorem EncodeFits.stControlChange (cable : Nibble) (b0 b1 b2 : Byte) : EncodeFits.Statement (.stControlChange cable b0 b1 b2) := fun h =>
  ⟨⟨"TX_FIXED.ST_CONTROL_CHANGE", 0xF0000003F0000000, 0x20000003B0000000⟩, by simp [cmdRows, statusRows], rfl, OpRow.fits_fixed 3 3 0xf0 0xb0 (by decide) (by decide) (by decide) (and_of_inClass h)⟩

theorem EncodeFits.stProgramChange (cable : Nibble) (b0 b1 : Byte) : EncodeFits.Statement (.stProgramChange cable b0 b1) := fun h =>
  ⟨⟨"TX_FIXED.ST_PROGRAM_CHANGE", 0xF0000003F0000000, 0x20000002C0000000⟩, by simp [cmdRows, statusRows], rfl, OpRow.fits_fixed 3 2 0xf0 0xc0 (by decide) (by decide) (by decide) (and_of_inClass h)⟩

theorem EncodeFits.stChannelPressure (cable : Nibble) (b0 b1 : Byte) : EncodeFits.Statement (.stChannelPressure cable b0 b1) := fun h =>
  ⟨⟨"TX_FIXED.ST_CHANNEL_PRESSURE", 0xF0000003F0000000, 0x20000002D0000000⟩, by simp [cmdRows, statusRows], rfl, OpRow.fits_fixed 3 2 0xf0 0xd0 (by decide) (by decide) (by decide) (and_of_inClass h)⟩

theorem EncodeFits.stPitchBend (cable : Nibble) (b0 b1 b2 : Byte) : EncodeFits.Statement (.stPitchBend cable b0 b1 b2) := fun h =>
  ⟨⟨"TX_FIXED.ST_PITCH_BEND", 0xF0000003F0000000, 0x20000003E0000000⟩, by simp [cmdRows, statusRows], rfl, OpRow.fits_fixed 3 3 0xf0 0xe0 (by decide) (by decide) (by decide) (and_of_inClass h)⟩

theorem EncodeFits.stSysexComplete2 (cable : Nibble) (b1 : Byte) : EncodeFits.Statement (.stSysexComplete2 cable b1) := fun _ =>
  ⟨⟨"TX_FIXED.ST_SYSEX_COMPLETE2", 0xF0000003FF000000, 0x20000002F0000000⟩, by simp [cmdRows, statusRows], rfl, OpRow.fits_fixed 3 2 0xff 0xf0 (by decide) (by decide) (by decide) (by decide)⟩

theorem EncodeFits.stSysexComplete3 (cable : Nibble) (b1 b2 : Byte) : EncodeFits.Statement (.stSysexComplete3 cable b1 b2) := fun _ =>
  ⟨⟨"TX_FIXED.ST_SYSEX_COMPLETE3", 0xF0000003FF000000, 0x20000003F0000000⟩, by simp [cmdRows, statusRows], rfl, OpRow.fits_fixed 3 3 0xff 0xf0 (by decide) (by decide) (by decide) (by decide)⟩

theorem EncodeFits.stMtcQuarterFrame (cable : Nibble) (b1 : Byte) : EncodeFits.Statement (.stMtcQuarterFrame cable b1) := fun _ =>
  ⟨⟨"TX_FIXED.ST_MTC_QUARTER_FRAME", 0xF0000003FF000000, 0x20000002F1000000⟩, by simp [cmdRows, statusRows], rfl, OpRow.fits_fixed 3 2 0xff 0xf1 (by decide) (by decide) (by decide) (by decide)⟩

theorem EncodeFits.stSongPosition (cable : Nibble) (b1 b2 : Byte) : EncodeFits.Statement (.stSongPosition cable b1 b2) := fun _ =>
  ⟨⟨"TX_FIXED.ST_SONG_POSITION", 0xF0000003FF000000, 0x20000003F2000000⟩, by simp [cmdRows, statusRows], rfl, OpRow.fits_fixed 3 3 0xff 0xf2 (by decide) (by decide) (by decide) (by decide)⟩

theorem EncodeFits.stSongSelect (cable : Nibble) (b1 : Byte) : EncodeFits.Statement (.stSongSelect cable b1) := fun _ =>
  ⟨⟨"TX_FIXED.ST_SONG_SELECT", 0xF0000003FF000000, 0x20000002F3000000⟩, by simp [cmdRows, statusRows], rfl, OpRow.fits_fixed 3 2 0xff 0xf3 (by decide) (by decide) (by decide) (by decide)⟩

theorem EncodeFits.stTuneRequest (cable : Nibble) : EncodeFits.Statement (.stTuneRequest cable) := fun _ =>
  ⟨⟨"TX_FIXED.ST_TUNE_REQUEST", 0xF0000003FF000000, 0x20000001F6000000⟩, by simp [cmdRows, statusRows], rfl, OpRow.fits_fixed 3 1 0xff 0xf6 (by decide) (by decide) (by decide) (by decide)⟩

theorem EncodeFits.stRealtime (cable : Nibble) (b0 : Byte) : EncodeFits.Statement (.stRealtime cable b0) := fun h =>
  ⟨⟨"TX_FIXED.ST_REALTIME", 0xF0000003F8000000, 0x20000001F8000000⟩, by simp [cmdRows, statusRows], rfl, OpRow.fits_fixed 3 1 0xf8 0xf8 (by decide) (by decide) (by decide) (by revert h; simp only [Instr.wf]; revert b0; decide)⟩

theorem EncodeFits.stInvalidData (cable : Nibble) (len : BitVec 2) (b0 b1 b2 : Byte) : EncodeFits.Statement (.stInvalidData cable len b0 b1 b2) := fun h =>
  ⟨⟨"TX_FIXED.ST_INVALID_DATA", 0xF000000080000000, 0x2000000000000000⟩, by simp [cmdRows, statusRows], rfl, OpRow.fits_fixed 0 0 0x80 0x0 (by decide) (by decide) (BitVec.and_zero) (by revert h; simp only [Instr.wf]; revert b0; decide)⟩

theorem EncodeFits.stInvalidUndefined (cable : Nibble) (len : BitVec 2) (b0 b1 b2 : Byte) : EncodeFits.Statement (.stInvalidUndefined cable len b0 b1 b2) := fun h =>
  ⟨⟨"TX_FIXED.ST_INVALID_UNDEFINED", 0xF0000000FE000000, 0x20000000F4000000⟩, by simp [cmdRows, statusRows], rfl, OpRow.fits_fixed 0 0 0xfe 0xf4 (by decide) (by decide) (BitVec.and_zero) (by revert h; simp only [Instr.wf]; revert b0; decide)⟩

theorem EncodeFits.stInvalidEox (cable : Nibble) (len : BitVec 2) (b1 b2 : Byte) : EncodeFits.Statement (.stInvalidEox cable len b1 b2) := fun _ =>
  ⟨⟨"TX_FIXED.ST_INVALID_EOX", 0xF0000000FF000000, 0x20000000F7000000⟩, by simp [cmdRows, statusRows], rfl, OpRow.fits_fixed 0 0 0xff 0xf7 (by decide) (by decide) (BitVec.and_zero) (by decide)⟩

theorem EncodeFits.pktReserved0 (cable : Nibble) : EncodeFits.Statement (.pktReserved0 cable) := fun _ =>
  ⟨⟨"PKT_RESERVED0", 0x0F000000, 0x00000000⟩, by simp [pktRows], rfl, OpRow.fits_pkt 0x0 0x0 0x0 (by decide) (by decide) (BitVec.and_zero)⟩

theorem EncodeFits.pktReserved1 (cable : Nibble) : EncodeFits.Statement (.pktReserved1 cable) := fun _ =>
  ⟨⟨"PKT_RESERVED1", 0x0F000000, 0x01000000⟩, by simp [pktRows], rfl, OpRow.fits_pkt 0x1 0x0 0x0 (by decide) (by decide) (BitVec.and_zero)⟩

theorem EncodeFits.pktSyscom2 (cable : Nibble) (b1 b2 : Byte) : EncodeFits.Statement (.pktSyscom2 cable b1 b2) := fun _ =>
  ⟨⟨"PKT_SYSCOM2", 0x0F000000, 0x02000000⟩, by simp [pktRows], rfl, OpRow.fits_pkt 0x2 0x0 0x0 (by decide) (by decide) (BitVec.and_zero)⟩

theorem EncodeFits.pktSyscom3 (cable : Nibble) (b1 b2 b3 : Byte) : EncodeFits.Statement (.pktSyscom3 cable b1 b2 b3) := fun _ =>
  ⟨⟨"PKT_SYSCOM3", 0x0F000000, 0x03000000⟩, by simp [pktRows], rfl, OpRow.fits_pkt 0x3 0x0 0x0 (by decide) (by decide) (BitVec.and_zero)⟩

theorem EncodeFits.pktSxStart (cable : Nibble) (b2 b3 : Byte) : EncodeFits.Statement (.pktSxStart cable b2 b3) := fun _ =>
  ⟨⟨"PKT_SX_START", 0x0FFF0000, 0x04F00000⟩, by simp [pktRows], rfl, OpRow.fits_pkt 0x4 0xff 0xf0 (by decide) (by decide) (by decide)⟩

theorem EncodeFits.pktSxCont (cable : Nibble) (b1 b2 b3 : Byte) : EncodeFits.Statement (.pktSxCont cable b1 b2 b3) := fun _ =>
  ⟨⟨"PKT_SX_CONT", 0x0F000000, 0x04000000⟩, by simp [pktRows], rfl, OpRow.fits_pkt 0x4 0x0 0x0 (by decide) (by decide) (BitVec.and_zero)⟩

theorem EncodeFits.pktSxEnd1 (cable : Nibble) : EncodeFits.Statement (.pktSxEnd1 cable) := fun _ =>
  ⟨⟨"PKT_SX_END1", 0x0FFF0000, 0x05F70000⟩, by simp [pktRows], rfl, OpRow.fits_pkt 0x5 0xff 0xf7 (by decide) (by decide) (by decide)⟩

theorem EncodeFits.pktSingleSys (cable : Nibble) (b1 : Byte) : EncodeFits.Statement (.pktSingleSys cable b1) := fun _ =>
  ⟨⟨"PKT_SINGLE_SYS", 0x0F000000, 0x05000000⟩, by simp [pktRows], rfl, OpRow.fits_pkt 0x5 0x0 0x0 (by decide) (by decide) (BitVec.and_zero)⟩

theorem EncodeFits.pktSxComplete2 (cable : Nibble) (b2 : Byte) : EncodeFits.Statement (.pktSxComplete2 cable b2) := fun _ =>
  ⟨⟨"PKT_SX_COMPLETE2", 0x0FFF0000, 0x06F00000⟩, by simp [pktRows], rfl, OpRow.fits_pkt 0x6 0xff 0xf0 (by decide) (by decide) (by decide)⟩

theorem EncodeFits.pktSxEnd2 (cable : Nibble) (b1 b2 : Byte) : EncodeFits.Statement (.pktSxEnd2 cable b1 b2) := fun _ =>
  ⟨⟨"PKT_SX_END2", 0x0F000000, 0x06000000⟩, by simp [pktRows], rfl, OpRow.fits_pkt 0x6 0x0 0x0 (by decide) (by decide) (BitVec.and_zero)⟩

theorem EncodeFits.pktSxComplete3 (cable : Nibble) (b2 b3 : Byte) : EncodeFits.Statement (.pktSxComplete3 cable b2 b3) := fun _ =>
  ⟨⟨"PKT_SX_COMPLETE3", 0x0FFF0000, 0x07F00000⟩, by simp [pktRows], rfl, OpRow.fits_pkt 0x7 0xff 0xf0 (by decide) (by decide) (by decide)⟩

theorem EncodeFits.pktSxEnd3 (cable : Nibble) (b1 b2 b3 : Byte) : EncodeFits.Statement (.pktSxEnd3 cable b1 b2 b3) := fun _ =>
  ⟨⟨"PKT_SX_END3", 0x0F000000, 0x07000000⟩, by simp [pktRows], rfl, OpRow.fits_pkt 0x7 0x0 0x0 (by decide) (by decide) (BitVec.and_zero)⟩

theorem EncodeFits.pktNoteOff (cable : Nibble) (b1 b2 b3 : Byte) : EncodeFits.Statement (.pktNoteOff cable b1 b2 b3) := fun _ =>
  ⟨⟨"PKT_NOTE_OFF", 0x0F000000, 0x08000000⟩, by simp [pktRows], rfl, OpRow.fits_pkt 0x8 0x0 0x0 (by decide) (by decide) (BitVec.and_zero)⟩

theorem EncodeFits.pktNoteOn (cable : Nibble) (b1 b2 b3 : Byte) : EncodeFits.Statement (.pktNoteOn cable b1 b2 b3) := fun _ =>
  ⟨⟨"PKT_NOTE_ON", 0x0F000000, 0x09000000⟩, by simp [pktRows], rfl, OpRow.fits_pkt 0x9 0x0 0x0 (by decide) (by decide) (BitVec.and_zero)⟩

theorem EncodeFits.pktPolyPressure (cable : Nibble) (b1 b2 b3 : Byte) : EncodeFits.Statement (.pktPolyPressure cable b1 b2 b3) := fun _ =>
  ⟨⟨"PKT_POLY_PRESSURE", 0x0F000000, 0x0A000000⟩, by simp [pktRows], rfl, OpRow.fits_pkt 0xa 0x0 0x0 (by decide) (by decide) (BitVec.and_zero)⟩

theorem EncodeFits.pktControlChange (cable : Nibble) (b1 b2 b3 : Byte) : EncodeFits.Statement (.pktControlChange cable b1 b2 b3) := fun _ =>
  ⟨⟨"PKT_CONTROL_CHANGE", 0x0F000000, 0x0B000000⟩, by simp [pktRows], rfl, OpRow.fits_pkt 0xb 0x0 0x0 (by decide) (by decide) (BitVec.and_zero)⟩

theorem EncodeFits.pktProgramChange (cable : Nibble) (b1 b2 : Byte) : EncodeFits.Statement (.pktProgramChange cable b1 b2) := fun _ =>
  ⟨⟨"PKT_PROGRAM_CHANGE", 0x0F000000, 0x0C000000⟩, by simp [pktRows], rfl, OpRow.fits_pkt 0xc 0x0 0x0 (by decide) (by decide) (BitVec.and_zero)⟩

theorem EncodeFits.pktChannelPressure (cable : Nibble) (b1 b2 : Byte) : EncodeFits.Statement (.pktChannelPressure cable b1 b2) := fun _ =>
  ⟨⟨"PKT_CHANNEL_PRESSURE", 0x0F000000, 0x0D000000⟩, by simp [pktRows], rfl, OpRow.fits_pkt 0xd 0x0 0x0 (by decide) (by decide) (BitVec.and_zero)⟩

theorem EncodeFits.pktPitchBend (cable : Nibble) (b1 b2 b3 : Byte) : EncodeFits.Statement (.pktPitchBend cable b1 b2 b3) := fun _ =>
  ⟨⟨"PKT_PITCH_BEND", 0x0F000000, 0x0E000000⟩, by simp [pktRows], rfl, OpRow.fits_pkt 0xe 0x0 0x0 (by decide) (by decide) (BitVec.and_zero)⟩

theorem EncodeFits.pktSingleByte (cable : Nibble) (b1 : Byte) : EncodeFits.Statement (.pktSingleByte cable b1) := fun _ =>
  ⟨⟨"PKT_SINGLE_BYTE", 0x0F000000, 0x0F000000⟩, by simp [pktRows], rfl, OpRow.fits_pkt 0xf 0x0 0x0 (by decide) (by decide) (BitVec.and_zero)⟩

end Sys2Proof.Laws
end

