-- ==== Sys2Proof/Tests/Slice0.lean ====
section
/-! SUPPORT. The model's own tests. Expected results are those of spec/95_test_vectors.md (its row is named in each
test) or of the rule named. The last part holds, for every obligation with hypotheses, inputs that meet them. -/

namespace Sys2Proof.Tests

open Sys2Proof.Machine

/-! ## Small states -/

/-- A block after power-on with N_CABLES = n + 1, CAP = c + 1, TS_W = t + 1. -/
def blockOf (n : Fin 16) (c : Fin 256) (t : Fin 64) : State := State.resetWith ⟨n, c, t, 1⟩

/-- The outputs of an answer. -/
def outOf : Answer → Option Outputs
  | .next t => t.out
  | _ => none

/-- The state an answer leads to. -/
def after : Answer → State
  | .next t => t
  | _ => State.reset

/-- One step that takes a command word. -/
def runWord (w : Nat) (s : State) : Answer := step (s.withFetchWord 64 w)

/-- The time of the next step. -/
def State.at (s : State) (now : Word64) : State := { s with pins := { s.pins with now := now } }

/-- The transport's answer in the next step. -/
def State.sendOk (s : State) (b : Bool) : State := { s with pins := { s.pins with sendOk := b } }

/-- The source memory holds these bytes from address 0 on. -/
def State.src (s : State) (bs : List Byte) : State := { s with srcMem := bs.zipIdx.map fun x => (x.2, x.1) }

/-- A sysex session is open on cable `c` with `count` bytes since time `start`. -/
def State.recv (s : State) (c : Nibble) (count : Word32) (start : Word64) : State :=
  s.rxSet c ⟨.receiving, count, start⟩

/-- A step input with `now` = 0, send_ok = 1, the source at 0 and no host write. -/
def cmd (w : Word64) : StepInput := ⟨.word w, Pins.default, []⟩

/-- An accepted send. -/
def sentOk (bs : List Byte) : Option Outputs := some ⟨.ok, 0, [], some bs⟩

/-- OK with events. -/
def evs (es : List Event) : Option Outputs := some ⟨.ok, 0, es, none⟩

/-- A refusal. -/
def refusedWith (r : Result) : Option Outputs := some ⟨r, 0, [], none⟩

/-! ## WellFormed refuses what no word stands for -/

theorem test_wf_txFixed_of_a_class : (Instr.txFixed 0 3 0x90 0 0).wf = false := by decide
theorem test_wf_txFixed_of_a_data_byte : (Instr.txFixed 0 3 0x40 0 0).wf = false := by decide
theorem test_wf_noteOff : (Instr.stNoteOff 0 0x90 0 0).wf = false := by decide
theorem test_wf_noteOn : (Instr.stNoteOn 0 0x80 0 0).wf = false := by decide
theorem test_wf_polyPressure : (Instr.stPolyPressure 0 0xB0 0 0).wf = false := by decide
theorem test_wf_controlChange : (Instr.stControlChange 0 0xA0 0 0).wf = false := by decide
theorem test_wf_programChange : (Instr.stProgramChange 0 0xD0 0).wf = false := by decide
theorem test_wf_channelPressure : (Instr.stChannelPressure 0 0xC0 0).wf = false := by decide
theorem test_wf_pitchBend : (Instr.stPitchBend 0 0xF0 0 0).wf = false := by decide
theorem test_wf_realtime : (Instr.stRealtime 0 0xF7).wf = false := by decide
theorem test_wf_invalidData : (Instr.stInvalidData 0 1 0x80 0 0).wf = false := by decide
theorem test_wf_invalidUndefined : (Instr.stInvalidUndefined 0 1 0xF6 0 0).wf = false := by decide
theorem test_wf_sxCont : (Instr.pktSxCont 0 0xF0 0 0).wf = false := by decide
theorem test_wf_singleSys : (Instr.pktSingleSys 0 0xF7).wf = false := by decide
theorem test_wf_sxEnd2 : (Instr.pktSxEnd2 0 0xF0 0).wf = false := by decide
theorem test_wf_sxEnd3 : (Instr.pktSxEnd3 0 0xF0 0 0).wf = false := by decide

/-! ## Bytes that are no instruction -/

theorem test_decodeBytes_length : decodeBytes [0x19, 0x90, 0x40] = .error (.badLength 3) := by decide

/-! ## TX_FIXED and its status classes: the word decodes, and the step from reset sends the packet -/

/-- V-F1. -/
theorem test_stNoteOff : decodeWord 0x20000003803C0000 = .stNoteOff 0 0x80 0x3C 0x00 ∧
    outOf (runWord 0x20000003803C0000 State.reset) = sentOk [0x08, 0x80, 0x3C, 0x00] := by decide

/-- V-F2. -/
theorem test_stNoteOn : decodeWord 0x2100000390407F00 = .stNoteOn 1 0x90 0x40 0x7F ∧
    outOf (runWord 0x2100000390407F00 State.reset) = sentOk [0x19, 0x90, 0x40, 0x7F] := by decide

/-- V-F32: reserved and ignored bits set. -/
theorem test_stNoteOn_ignored : decodeWord 0x20FFFFFF90407FAB = .stNoteOn 0 0x90 0x40 0x7F ∧
    outOf (runWord 0x20FFFFFF90407FAB State.reset) = sentOk [0x09, 0x90, 0x40, 0x7F] := by decide

/-- V-F3. -/
theorem test_stPolyPressure : decodeWord 0x22000003A3402000 = .stPolyPressure 2 0xA3 0x40 0x20 ∧
    outOf (runWord 0x22000003A3402000 State.reset) = sentOk [0x2A, 0xA3, 0x40, 0x20] := by decide

/-- V-F4. -/
theorem test_stControlChange : decodeWord 0x20000003B0076400 = .stControlChange 0 0xB0 0x07 0x64 ∧
    outOf (runWord 0x20000003B0076400 State.reset) = sentOk [0x0B, 0xB0, 0x07, 0x64] := by decide

/-- V-F5. -/
theorem test_stProgramChange : decodeWord 0x23000002C50A0000 = .stProgramChange 3 0xC5 0x0A ∧
    outOf (runWord 0x23000002C50A0000 State.reset) = sentOk [0x3C, 0xC5, 0x0A, 0x00] := by decide

/-- V-F6. -/
theorem test_stChannelPressure : decodeWord 0x20000002D0300000 = .stChannelPressure 0 0xD0 0x30 ∧
    outOf (runWord 0x20000002D0300000 State.reset) = sentOk [0x0D, 0xD0, 0x30, 0x00] := by decide

/-- V-F7. -/
theorem test_stPitchBend : decodeWord 0x20000003E0004000 = .stPitchBend 0 0xE0 0x00 0x40 ∧
    outOf (runWord 0x20000003E0004000 State.reset) = sentOk [0x0E, 0xE0, 0x00, 0x40] := by decide

/-- V-F8. -/
theorem test_stMtcQuarterFrame : decodeWord 0x20000002F1120000 = .stMtcQuarterFrame 0 0x12 ∧
    outOf (runWord 0x20000002F1120000 State.reset) = sentOk [0x02, 0xF1, 0x12, 0x00] := by decide

/-- V-F9. -/
theorem test_stSongPosition : decodeWord 0x20000003F2102000 = .stSongPosition 0 0x10 0x20 ∧
    outOf (runWord 0x20000003F2102000 State.reset) = sentOk [0x03, 0xF2, 0x10, 0x20] := by decide

/-- V-F10. -/
theorem test_stSongSelect : decodeWord 0x20000002F3050000 = .stSongSelect 0 0x05 ∧
    outOf (runWord 0x20000002F3050000 State.reset) = sentOk [0x02, 0xF3, 0x05, 0x00] := by decide

/-- V-F11. -/
theorem test_stTuneRequest : decodeWord 0x20000001F6000000 = .stTuneRequest 0 ∧
    outOf (runWord 0x20000001F6000000 State.reset) = sentOk [0x05, 0xF6, 0x00, 0x00] := by decide

/-- V-F13. -/
theorem test_stRealtime : decodeWord 0x2F000001FF000000 = .stRealtime 15 0xFF ∧
    outOf (runWord 0x2F000001FF000000 State.reset) = sentOk [0xF5, 0xFF, 0x00, 0x00] := by decide

/-- V-F30: SessionBusy after an unacknowledged fixed message, and nothing is written. -/
theorem test_stRealtime_busy :
    outOf (runWord 0x20000001FA000000 (after (runWord 0x20000001F8000000 State.reset))) = refusedWith .sessionBusy ∧
    (after (runWord 0x20000001FA000000 (after (runWord 0x20000001F8000000 State.reset)))).fxPkt = ⟨0x05, 0xF8, 0, 0⟩ := by
  decide

/-- V-F16. -/
theorem test_stSysexComplete2 : decodeWord 0x20000002F0F70000 = .stSysexComplete2 0 0xF7 ∧
    outOf (runWord 0x20000002F0F70000 State.reset) = sentOk [0x06, 0xF0, 0xF7, 0x00] := by decide

/-- V-F17. -/
theorem test_stSysexComplete3 : decodeWord 0x20000003F07EF700 = .stSysexComplete3 0 0x7E 0xF7 ∧
    outOf (runWord 0x20000003F07EF700 State.reset) = sentOk [0x07, 0xF0, 0x7E, 0xF7] := by decide

/-- V-F22: 0xF0 not ending in 0xF7. -/
theorem test_stSysexComplete3_unended : decodeWord 0x20000003F0010200 = .stSysexComplete3 0 0x01 0x02 ∧
    outOf (runWord 0x20000003F0010200 State.reset) = refusedWith .invalidMessage := by decide

/-- V-F18. -/
theorem test_stInvalidData : decodeWord 0x2000000340000000 = .stInvalidData 0 3 0x40 0x00 0x00 ∧
    outOf (runWord 0x2000000340000000 State.reset) = refusedWith .invalidMessage := by decide

/-- V-F20. -/
theorem test_stInvalidUndefined : decodeWord 0x20000001F5000000 = .stInvalidUndefined 0 1 0xF5 0x00 0x00 ∧
    outOf (runWord 0x20000001F5000000 State.reset) = refusedWith .invalidMessage := by decide

/-- V-F21. -/
theorem test_stInvalidEox : decodeWord 0x20000001F7000000 = .stInvalidEox 0 1 0x00 0x00 ∧
    outOf (runWord 0x20000001F7000000 State.reset) = refusedWith .invalidMessage := by decide

/-- V-F24 and V-F27: a LEN the status byte does not take. -/
theorem test_txFixed_wrong_len : decodeWord 0x2000000290400000 = .txFixed 0 2 0x90 0x40 0x00 ∧
    decodeWord 0x2000000090000000 = .txFixed 0 0 0x90 0x00 0x00 ∧
    outOf (runWord 0x2000000290400000 State.reset) = refusedWith .invalidMessage ∧
    outOf (runWord 0x2000000090000000 State.reset) = refusedWith .invalidMessage := by decide

/-- V-F29: the meaning of TX_FIXED itself with the send refused leaves fx_pkt written and tx_state IDLE. -/
theorem test_txFixed_send_refused :
    outOf (exec (.txFixed 0 3 0x90 0x01 0x02) (State.sendOk State.reset false))
      = some ⟨.transportFailure, 0, [], some [0x09, 0x90, 0x01, 0x02]⟩ ∧
    (after (exec (.txFixed 0 3 0x90 0x01 0x02) (State.sendOk State.reset false))).fxPkt.toWord = 0x09900102 ∧
    (after (exec (.txFixed 0 3 0x90 0x01 0x02) (State.sendOk State.reset false))).txState = .idle := by decide

/-! ## TX_SYSEX and TX_COMPLETE -/

/-- V-S3, with the payload 03 0A. -/
theorem test_txSysex : decodeWord 0x3000000000000002 = .txSysex 0 2 ∧
    outOf (runWord 0x3000000000000002 (State.src State.reset [0x03, 0x0A]))
      = sentOk [0x04, 0xF0, 0x03, 0x0A, 0x05, 0xF7, 0x00, 0x00] := by decide

/-- V-S14 and V-S13: a length whose framed length does not fit in 32 bits, and a cable the block has not. -/
theorem test_txSysex_refused :
    outOf (runWord 0x30000000FFFFFFFE State.reset) = refusedWith .invalidMessage ∧
    outOf (runWord 0x3400000000000003 (blockOf 3 15 31)) = refusedWith .invalidMessage := by decide

/-- V-S19: EP_MAX = 4, so that the second packet goes out in the completion of the first. -/
theorem test_txComplete_resumes : decodeWord 0x4000000000000000 = .txComplete ∧
    outOf (runWord 0x4000000000000000
        (after (runWord 0x3000000000000004 (State.src (blockOf 15 0 31) [0x03, 0x0A, 0x11, 0x18]))))
      = sentOk [0x07, 0x11, 0x18, 0xF7] := by decide

/-- V-S18 and V-S17: the end of a fixed transfer, and a spurious completion. -/
theorem test_txComplete_idle :
    (after (runWord 0x4000000000000000 (after (runWord 0x20000001F8000000 State.reset)))).txState = .idle ∧
    outOf (runWord 0x4000000000000000 State.reset) = evs [] := by decide

/-! ## READ, RESET and the reserved commands -/

/-- V-C6 and V-C2: CONFIG. -/
theorem test_read : decodeWord 0x5000000000000107 = .read 0x07 ∧
    outOf (runWord 0x5000000000000107 State.reset) = some ⟨.ok, 0x20004010, [], none⟩ ∧
    outOf (runWord 0x5000000000000007 (blockOf 1 127 15)) = some ⟨.ok, 0x10020002, [], none⟩ := by decide

/-- TX_STATUS of V-S16 (LAST_RESULT = 3), V-C12, V-C13 and V-S1 (tx_state 1, 2 and 3), and RX_COUNT of V-C8. -/
theorem test_read_status :
    outOf (runWord 0x5000000000000000 { State.reset with txLastResult := .transportFailure })
      = some ⟨.ok, 0x00000030, [], none⟩ ∧
    outOf (runWord 0x5000000000000000 { State.reset with txState := .fixedInflight })
      = some ⟨.ok, 0x00000001, [], none⟩ ∧
    outOf (runWord 0x5000000000000000 { State.reset with txState := .sxWaitMid, txCable := 5 })
      = some ⟨.ok, 0x00000506, [], none⟩ ∧
    outOf (runWord 0x5000000000000000 { State.reset with txState := .sxWaitLast })
      = some ⟨.ok, 0x00000007, [], none⟩ ∧
    outOf (runWord 0x5000000000000011 (after (runWord 0x1000000014F00102 State.reset)))
      = some ⟨.ok, 0x00000003, [], none⟩ := by decide

/-- RESET (43_control.md R262) from a block with every kind of register set. -/
theorem test_reset : decodeWord 0x6000000000000000 = .reset ∧
    outOf (runWord 0x6000000000000000 { State.recv State.reset 3 9 9 with txLen := 7, rxDiscardCount := 2 }) = evs [] ∧
    (after (runWord 0x6000000000000000 { State.recv State.reset 3 9 9 with txLen := 7, rxDiscardCount := 2 })).rxGet 3
      = ⟨.idle, 0, 0⟩ := by decide

/-- V-C15. -/
theorem test_reservedOp0 : decodeWord 0x0000000000000000 = .reservedOp0 ∧
    outOf (runWord 0x0000000000000000 State.reset) = refusedWith .invalidMessage := by decide

/-- V-C16. -/
theorem test_reservedOp7 : decodeWord 0x7000000000000000 = .reservedOp7 ∧
    outOf (runWord 0x7000000000000000 State.reset) = refusedWith .invalidMessage := by decide

/-- R121, R127: the reserved OPs between V-C16 and V-C17. -/
theorem test_reservedOps : decodeWord 0x8000000000000000 = .reservedOp8 ∧ decodeWord 0x9000000000000000 = .reservedOp9 ∧
    decodeWord 0xA000000000000000 = .reservedOpA ∧ decodeWord 0xB000000000000000 = .reservedOpB ∧
    decodeWord 0xC000000000000000 = .reservedOpC ∧ decodeWord 0xD000000000000000 = .reservedOpD ∧
    decodeWord 0xE000000000000000 = .reservedOpE := by decide

/-- V-C17. -/
theorem test_reservedOpF : decodeWord 0xF3000003FFFFFFFF = .reservedOpF ∧
    outOf (runWord 0xF3000003FFFFFFFF State.reset) = refusedWith .invalidMessage := by decide

/-! ## RX_FRAME and the packet rows -/

/-- V-R25. -/
theorem test_rxFrame : decodeWord 0x1000000019904064 = .rxFrame 0x19904064 ∧
    outOf (runWord 0x1000000019904064 State.reset) = evs [.message 1 [0x90, 0x40, 0x64]] := by decide

/-- V-R32: a cable the block has not. -/
theorem test_rxFrame_absent_cable : outOf (runWord 0x1000000029904000 (blockOf 1 15 31)) = evs [] ∧
    (after (runWord 0x1000000029904000 (blockOf 1 15 31))).rxDiscardCount = 1 := by decide

/-- One step that takes a raw frame. -/
def runFrame (p : Nat) (s : State) : Answer := step (s.withFetchWord 32 p)

/-- V-R1. -/
theorem test_pktReserved0 : decodePacket 0x00123456 = .pktReserved0 0 ∧
    (after (runFrame 0x00123456 State.reset)).rxReservedCount = 1 := by decide

/-- V-R2. -/
theorem test_pktReserved1 : decodePacket 0x31000000 = .pktReserved1 3 ∧
    (after (runFrame 0x31000000 State.reset)).rxReservedCount = 1 := by decide

/-- V-R3. -/
theorem test_pktSyscom2 : decodePacket 0x02F11200 = .pktSyscom2 0 0xF1 0x12 ∧
    outOf (runFrame 0x02F11200 State.reset) = evs [.message 0 [0xF1, 0x12]] := by decide

/-- V-R4. -/
theorem test_pktSyscom3 : decodePacket 0x03F21020 = .pktSyscom3 0 0xF2 0x10 0x20 ∧
    outOf (runFrame 0x03F21020 State.reset) = evs [.message 0 [0xF2, 0x10, 0x20]] := by decide

/-- V-R5. -/
theorem test_pktSxStart : decodePacket 0x04F00102 = .pktSxStart 0 0x01 0x02 ∧
    outOf (runFrame 0x04F00102 State.reset) = evs [.sysexStart 0, .sysexData 0 [0x01, 0x02]] := by decide

/-- S3, step 3: a start in an open session. -/
theorem test_pktSxStart_restarts :
    outOf (runFrame 0x04F00A0B (State.at (State.recv State.reset 0 6 1) 3))
      = evs [.sysexStart 0, .sysexData 0 [0x0A, 0x0B]] ∧
    (after (runFrame 0x04F00A0B (State.at (State.recv State.reset 0 6 1) 3))).rxGet 0 = ⟨.receiving, 3, 3⟩ := by decide

/-- S1, step 2. -/
theorem test_pktSxCont : decodePacket 0x04030405 = .pktSxCont 0 0x03 0x04 0x05 ∧
    outOf (runFrame 0x04030405 (State.recv State.reset 0 3 10)) = evs [.sysexData 0 [0x03, 0x04, 0x05]] ∧
    ((after (runFrame 0x04030405 (State.recv State.reset 0 3 10))).rxGet 0).count = 6 := by decide

/-- V-R6: an orphan. -/
theorem test_pktSxCont_orphan : outOf (runFrame 0x04010203 State.reset) = evs [] ∧
    (after (runFrame 0x04010203 State.reset)).rxDiscardCount = 1 := by decide

/-- S1, step 3. -/
theorem test_pktSxEnd1 : decodePacket 0x05F70000 = .pktSxEnd1 0 ∧
    outOf (runFrame 0x05F70000 (State.at (State.recv State.reset 0 6 10) 15)) = evs [.sysexEnd 0 7 5] := by decide

/-- S7, step 2: elapsed time wraps at TS_W = 8. -/
theorem test_pktSxEnd1_wraps :
    outOf (runFrame 0x05F70000 (State.at (State.recv (blockOf 15 15 7) 0 3 250) 4)) = evs [.sysexEnd 0 4 10] := by decide

/-- V-R9: 0xF0 in CIN 0x5 is a message. -/
theorem test_pktSingleSys : decodePacket 0x05F00000 = .pktSingleSys 0 0xF0 ∧
    outOf (runFrame 0x05F00000 State.reset) = evs [.message 0 [0xF0]] := by decide

/-- V-R10. -/
theorem test_pktSxComplete2 : decodePacket 0x06F0F700 = .pktSxComplete2 0 0xF7 ∧
    outOf (runFrame 0x06F0F700 State.reset) = evs [.sysexStart 0, .sysexEnd 0 2 0] := by decide

/-- S2, step 2. -/
theorem test_pktSxEnd2 : decodePacket 0x0611F700 = .pktSxEnd2 0 0x11 0xF7 ∧
    outOf (runFrame 0x0611F700 (State.at (State.recv State.reset 0 3 0) 2))
      = evs [.sysexData 0 [0x11], .sysexEnd 0 5 2] := by decide

/-- V-R12. -/
theorem test_pktSxComplete3 : decodePacket 0x07F07EF7 = .pktSxComplete3 0 0x7E 0xF7 ∧
    outOf (runFrame 0x07F07EF7 State.reset) = evs [.sysexStart 0, .sysexData 0 [0x7E], .sysexEnd 0 3 0] := by decide

/-- S2, step 4. -/
theorem test_pktSxEnd3 : decodePacket 0x071118F7 = .pktSxEnd3 0 0x11 0x18 0xF7 ∧
    outOf (runFrame 0x071118F7 (State.at (State.recv State.reset 0 3 5) 5))
      = evs [.sysexData 0 [0x11, 0x18], .sysexEnd 0 6 0] := by decide

/-- V-R14. -/
theorem test_pktNoteOff : decodePacket 0x08803C00 = .pktNoteOff 0 0x80 0x3C 0x00 ∧
    outOf (runFrame 0x08803C00 State.reset) = evs [.message 0 [0x80, 0x3C, 0x00]] := by decide

/-- V-R15. -/
theorem test_pktNoteOn : decodePacket 0x1990407F = .pktNoteOn 1 0x90 0x40 0x7F ∧
    outOf (runFrame 0x1990407F State.reset) = evs [.message 1 [0x90, 0x40, 0x7F]] := by decide

/-- V-R16. -/
theorem test_pktPolyPressure : decodePacket 0x2AA34020 = .pktPolyPressure 2 0xA3 0x40 0x20 ∧
    outOf (runFrame 0x2AA34020 State.reset) = evs [.message 2 [0xA3, 0x40, 0x20]] := by decide

/-- V-R17. -/
theorem test_pktControlChange : decodePacket 0x0BB00764 = .pktControlChange 0 0xB0 0x07 0x64 ∧
    outOf (runFrame 0x0BB00764 State.reset) = evs [.message 0 [0xB0, 0x07, 0x64]] := by decide

/-- V-R31: padding is ignored. -/
theorem test_pktProgramChange : decodePacket 0x0CC50AFF = .pktProgramChange 0 0xC5 0x0A ∧
    outOf (runFrame 0x0CC50AFF State.reset) = evs [.message 0 [0xC5, 0x0A]] := by decide

/-- V-R19. -/
theorem test_pktChannelPressure : decodePacket 0x0DD03000 = .pktChannelPressure 0 0xD0 0x30 ∧
    outOf (runFrame 0x0DD03000 State.reset) = evs [.message 0 [0xD0, 0x30]] := by decide

/-- V-R20. -/
theorem test_pktPitchBend : decodePacket 0x0EE00040 = .pktPitchBend 0 0xE0 0x00 0x40 ∧
    outOf (runFrame 0x0EE00040 State.reset) = evs [.message 0 [0xE0, 0x00, 0x40]] := by decide

/-- V-R21. -/
theorem test_pktSingleByte : decodePacket 0x0FF80000 = .pktSingleByte 0 0xF8 ∧
    outOf (runFrame 0x0FF80000 State.reset) = evs [.message 0 [0xF8]] := by decide

/-! ## The codec -/

/-- R128 and R280: the kind numbers of the events of V-R12, and the code of V-F29's result. -/
theorem test_codes :
    (outOf (runFrame 0x07F07EF7 State.reset)).map (fun o => (o.result.code, o.events.map Event.code)) = some (0, [1, 2, 3]) ∧
    (outOf (runFrame 0x05F80000 State.reset)).map (fun o => o.events.map Event.code) = some [0] ∧
    Result.transportFailure.code = 3 := by decide

/-- V-E2, V-E4 and V-E6. -/
theorem test_encodeSysex : (encodeSysex 0 [0x03, 0xF7] true).toWord = 0x0603F700 ∧
    (encodeSysex 0 [0xF0, 0xF7] true).toWord = 0x06F0F700 ∧
    (encodeSysex 9 [0x10, 0x20, 0x30] false).toWord = 0x94102030 := by decide


/-! ## Inputs that meet the hypotheses of each obligation -/

/-- A session on cable 0 with EP_MAX = 4, payload 03 0A 11 18, its first packet in flight. -/
def midSession : State := after (runWord 0x3000000000000004 (State.src (blockOf 15 0 31) [0x03, 0x0A, 0x11, 0x18]))

/-- The same session with its last packet in flight. -/
def lastSession : State := after (runWord 0x4000000000000000 midSession)

/-- A block with a fixed message in flight. -/
def fixedBusy : State := after (runWord 0x20000001F8000000 State.reset)

/-- `s` with a TX_COMPLETE pending. -/
def State.txc (s : State) : State := { s with queue := [cmd 0x4000000000000000] }

theorem witness_ResetHoldsTheResetValues : ∃ (p : Params) (u : State), u = State.resetWith p := ⟨Params.default, _, rfl⟩

theorem midSession_inv : (State.txc midSession).Inv := by constructor <;> decide

theorem witness_StepKeepsTheInvariant : ∃ s t : State, s.Inv ∧ s.txState = .sxWaitMid ∧ step s = .next t :=
  ⟨State.txc midSession, _, midSession_inv, by decide, rfl⟩

theorem witness_StepRunsTheDecodedInstruction :
    (∃ i rest, (State.txc midSession).queue = i :: rest) ∧ State.reset.queue = [] := ⟨⟨_, _, rfl⟩, rfl⟩

theorem witness_AFetchedWordIsRunNext :
    (0xFFFFFFFFFFFFFFFF < 2 ^ 64 ∧ decodeTableWord 64 0xFFFFFFFFFFFFFFFF = some .reservedOpF) ∧
    (0xFFFFFFFF < 2 ^ 32 ∧ decodeTableWord 32 0xFFFFFFFF = some (.pktSingleByte 0xF 0xFF)) := by decide

theorem witness_DecodeOfEncodeIsTheInstruction :
    (Instr.txFixed 0xF 0 0xFF 0xFF 0xFF).wf = true ∧ (Instr.stNoteOff 0xF 0x8F 0xFF 0xFF).wf = true ∧
    (Instr.stRealtime 0 0xF8).wf = true ∧ (Instr.stInvalidData 0 3 0x7F 0 0).wf = true ∧
    (Instr.stInvalidUndefined 0 0 0xF5 0 0).wf = true ∧ (Instr.pktSxCont 0 0xF7 0 0).wf = true ∧
    (Instr.pktSingleSys 0 0xF0).wf = true ∧ (Instr.pktSxEnd3 0 0xF7 0xF0 0).wf = true := by decide

/-- Two words for each clause: RX_FRAME, TX_FIXED of LEN 1, 0, 2 and 3, TX_SYSEX, READ, RESET. -/
theorem witness_IgnoredFieldsChangeNothing :
    (fieldOp 0x10000000ABCDEF01 = fieldOp 0x1F00000FABCDEF01 ∧ fieldArg 0x10000000ABCDEF01 = fieldArg 0x1F00000FABCDEF01) ∧
    (fieldOp 0x20000001F8000000 = fieldOp 0x20FFFFFDF8123456 ∧ fieldCable 0x20000001F8000000 = fieldCable 0x20FFFFFDF8123456 ∧
      fieldLen 0x20000001F8000000 = fieldLen 0x20FFFFFDF8123456 ∧
      byteAt0 (fieldArg 0x20000001F8000000) = byteAt0 (fieldArg 0x20FFFFFDF8123456)) ∧
    (fieldOp 0x2000000000000000 = fieldOp 0x20000000FFFFFFFF ∧ fieldLen 0x2000000000000000 = fieldLen 0x20000000FFFFFFFF ∧
      (fieldLen 0x2000000000000000).toNat = 0) ∧
    (fieldLen 0x20000002C50A0000 = fieldLen 0x20FFFFFEC50AFFFF ∧
      byteAt0 (fieldArg 0x20000002C50A0000) = byteAt0 (fieldArg 0x20FFFFFEC50AFFFF) ∧
      byteAt1 (fieldArg 0x20000002C50A0000) = byteAt1 (fieldArg 0x20FFFFFEC50AFFFF)) ∧
    (fieldLen 0x2000000390407F00 = fieldLen 0x20FFFFFF90407FAB ∧
      byteAt0 (fieldArg 0x2000000390407F00) = byteAt0 (fieldArg 0x20FFFFFF90407FAB) ∧
      byteAt1 (fieldArg 0x2000000390407F00) = byteAt1 (fieldArg 0x20FFFFFF90407FAB) ∧
      byteAt2 (fieldArg 0x2000000390407F00) = byteAt2 (fieldArg 0x20FFFFFF90407FAB)) ∧
    (fieldOp 0x3500000000000004 = fieldOp 0x35FFFFFF00000004 ∧ fieldCable 0x3500000000000004 = fieldCable 0x35FFFFFF00000004 ∧
      fieldArg 0x3500000000000004 = fieldArg 0x35FFFFFF00000004) ∧
    (fieldOp 0x5000000000000007 = fieldOp 0x5FFFFFFFFFFFFF07 ∧
      byteAt3 (fieldArg 0x5000000000000007) = byteAt3 (fieldArg 0x5FFFFFFFFFFFFF07)) ∧
    fieldOp 0x6000000000000000 = fieldOp 0x6FFFFFFFFFFFFFFF := by decide

/-- Each row of 30_encoding.md R112 at the ends of its range, and each way to fall out of the table. -/
theorem witness_EncodeFixedIsTheStatusClassTable :
    encodeFixed 3 0x80 0 0 = some 0x8 ∧ encodeFixed 3 0x8F 0 0 = some 0x8 ∧ encodeFixed 3 0x90 0 0 = some 0x9 ∧
    encodeFixed 3 0xAF 0 0 = some 0xA ∧ encodeFixed 3 0xB0 0 0 = some 0xB ∧ encodeFixed 2 0xC0 0 0 = some 0xC ∧
    encodeFixed 2 0xDF 0 0 = some 0xD ∧ encodeFixed 3 0xEF 0 0 = some 0xE ∧ encodeFixed 2 0xF0 0xF7 0 = some 0x6 ∧
    encodeFixed 3 0xF0 0 0xF7 = some 0x7 ∧ encodeFixed 2 0xF1 0 0 = some 0x2 ∧ encodeFixed 3 0xF2 0 0 = some 0x3 ∧
    encodeFixed 2 0xF3 0 0 = some 0x2 ∧ encodeFixed 1 0xF6 0 0 = some 0x5 ∧ encodeFixed 1 0xF8 0 0 = some 0x5 ∧
    encodeFixed 1 0xFF 0 0 = some 0x5 ∧ encodeFixed 0 0x80 0 0 = none ∧ encodeFixed 2 0x80 0 0 = none ∧
    encodeFixed 3 0x7F 0 0 = none ∧ encodeFixed 1 0xF4 0 0 = none ∧ encodeFixed 1 0xF7 0 0 = none ∧
    encodeFixed 3 0xF0 0xF7 0 = none := by decide

theorem witness_EncodedMessagesDecodeBack :
    encodeFixed 1 0xF8 0xFF 0xFF = some 0x5 ∧ encodeFixed 2 0xF0 0xF7 0xFF = some 0x6 ∧
    encodeFixed 3 0x90 0x40 0x7F = some 0x9 := by decide

theorem witness_PackPadsWithZeros : ([] : List Byte).length ≤ 3 ∧ ([0x90, 0x40, 0x7F] : List Byte).length ≤ 3 := by decide

theorem witness_SysexGroupsDecodeBack :
    (∃ g : List Byte, 1 ≤ g.length ∧ g.length ≤ 3 ∧ (true = false → g.length = 3)) ∧
    (∃ g : List Byte, 1 ≤ g.length ∧ g.length ≤ 3 ∧ (false = false → g.length = 3)) :=
  ⟨⟨[0xF7], by decide⟩, ⟨[0xF0, 0x01, 0x02], by decide⟩⟩

/-- A block of 2 cables: the least CIN that is not reserved on cable 2, and CIN 0xF on cable 15. -/
theorem witness_PacketsOnAbsentCablesAreDiscarded :
    (2 ≤ (pktCin 0x22F11200).toNat ∧ (blockOf 1 15 31).params.nCables ≤ (pktCable 0x22F11200).toNat) ∧
    (2 ≤ (pktCin 0xFFF80000).toNat ∧ (blockOf 1 15 31).params.nCables ≤ (pktCable 0xFFF80000).toNat) := by decide

theorem witness_ReservedPacketsAreCounted : pktCin 0xF0FFFFFF = 0x0 ∧ pktCin 0xF1FFFFFF = 0x1 := by decide

theorem witness_MessagePacketsAreDelivered :
    (kindOf 0x05F00000 = .msg ∧ (pktCable 0x05F00000).toNat < (blockOf 0 15 31).params.nCables) ∧
    (kindOf 0xF2F01200 = .msg ∧ (pktCable 0xF2F01200).toNat < State.reset.params.nCables) ∧
    (kindOf 0x0FF00000 = .msg ∧ (pktCable 0x0FF00000).toNat < State.reset.params.nCables) := by decide

/-- For every row of the packet table and for the messages: the last cable of a block of 16, and the one of a block of 1. -/
theorem witness_ThreeByteMessageRowsAreDelivered :
    (0xF : Nibble).toNat < State.reset.params.nCables ∧ (0x0 : Nibble).toNat < (blockOf 0 15 31).params.nCables := by decide

theorem witness_ShortMessageRowsAreDelivered :
    (0xF : Nibble).toNat < State.reset.params.nCables ∧ (0xF0 : Byte) ≠ 0xF7 := by decide

theorem witness_ASysexStartOpensTheSession :
    (0x1 : Nibble).toNat < (State.recv (blockOf 1 15 31) 1 6 1).params.nCables ∧ (0x0 : Nibble).toNat < State.reset.params.nCables := by
  decide

theorem witness_ASysexContinueIsCountedAndDelivered :
    (0x0 : Nibble).toNat < State.reset.params.nCables ∧ (0xF7 : Byte) ≠ 0xF0 ∧
    ((State.recv State.reset 0 3 10).rxGet 0).state = .receiving ∧ (State.reset.rxGet 0).state = .idle := by decide

theorem witness_ASysexEndClosesTheSession :
    (0xF : Nibble).toNat < State.reset.params.nCables ∧ (0xF7 : Byte) ≠ 0xF0 ∧
    ((State.recv State.reset 0xF 0xFFFFFFFF 250).rxGet 0xF).state = .receiving ∧ (State.reset.rxGet 0xF).state = .idle := by
  decide

theorem witness_ACompleteSysexIsAStartAndAnEnd :
    (0x0 : Nibble).toNat < (State.recv (blockOf 0 15 31) 0 3 7).params.nCables := by decide

theorem witness_CablesAreIndependent : ∃ t, exec (.rxFrame 0x04F00102) (State.recv State.reset 1 3 7) = .next t ∧
    (1 : Nibble) ≠ pktCable 0x04F00102 := ⟨_, rfl, by decide⟩

/-- A start, a continue and an end on cable 3, with a realtime byte, another cable's start and a fixed message between. -/
def sessionIn : State := { State.reset with queue :=
  [cmd 0x1000000034F01122, cmd 0x1000000035F80000, cmd 0x1000000034030405, cmd 0x1000000014F00102, cmd 0x20000001F8000000,
   cmd 0x10000000373344F7] }

theorem witness_ASessionEndsWithItsTotal :
    ((3 : Nibble).toNat < sessionIn.params.nCables ∧ (∀ i ∈ sessionIn.queue, decode i.cmd ≠ .reset) ∧
      sessionIn.queue.filterMap (fun i => sysexPacket? 3 i.cmd) = 0x34F01122 :: ([0x34030405] ++ [0x373344F7]) ∧
      kindOf 0x34F01122 = .sxStart ∧ (∀ x ∈ [(0x34030405 : Word32)], kindOf x = .sxCont) ∧ kindOf 0x373344F7 = .sxEnd) ∧
    (({ State.reset with queue := [cmd 0x1000000037F07EF7] } : State).queue.filterMap (fun i => sysexPacket? 3 i.cmd)
        = [0x37F07EF7] ∧ kindOf 0x37F07EF7 = .sxComplete) :=
  ⟨⟨by decide, by decide, rfl, rfl, fun x hx => by rw [List.mem_singleton.mp hx]; rfl, rfl⟩, rfl, rfl⟩

/-- The hypotheses on state of the message statements; the ranges of the status classes are those of
`witness_EncodeFixedIsTheStatusClassTable`. -/
theorem witness_ThreeByteMessagesAreSent :
    (0xF : Nibble).toNat < State.reset.params.nCables ∧ State.reset.txState = .idle ∧ State.reset.pins.sendOk = true := by
  decide

theorem witness_ShortMessagesAreSent :
    (0x0 : Nibble).toNat < (blockOf 0 15 31).params.nCables ∧ (blockOf 0 15 31).txState = .idle ∧
    (blockOf 0 15 31).pins.sendOk = true := by decide

theorem witness_CompleteSysexMessagesAreSent :
    (0xF : Nibble).toNat < State.reset.params.nCables ∧ State.reset.txState = .idle ∧ State.reset.pins.sendOk = true ∧
    (0x7F : Byte) ≠ 0xF7 := by decide

theorem witness_TxFixedSendsOneMessage :
    (blockOf 4 15 31).params.nCables ≤ (5 : Nibble).toNat ∧ encodeFixed (2 : BitVec 2).toNat 0x90 0x40 0 = none ∧
    ((4 : Nibble).toNat < (blockOf 4 15 31).params.nCables ∧ encodeFixed (3 : BitVec 2).toNat 0x90 0x40 0x7F = some 0x9) ∧
    fixedBusy.txState ≠ .idle ∧ (State.reset.txState = .idle ∧ State.reset.pins.sendOk = true) ∧
    ((State.sendOk State.reset false).txState = .idle ∧ (State.sendOk State.reset false).pins.sendOk = false) := by decide

theorem witness_MessagesWithNoClassAreInvalid :
    (0x7F : Byte) ≤ 0x7F ∧ (0xF4 : Byte) = 0xF4 ∧ (0xF5 : Byte) = 0xF5 ∧ (0xF7 : Byte) = 0xF7 := by decide

theorem witness_BusyBlocksTurnAwayNewTransfers :
    (fixedBusy.txState ≠ .idle ∧ (fieldCable 0x2F00000390407F00).toNat < fixedBusy.params.nCables ∧
      fieldOp 0x2F00000390407F00 = 0x2 ∧ encodeFixed (fieldLen 0x2F00000390407F00).toNat
        (byteAt0 (fieldArg 0x2F00000390407F00)) (byteAt1 (fieldArg 0x2F00000390407F00))
        (byteAt2 (fieldArg 0x2F00000390407F00)) = some 0x9) ∧
    (midSession.txState ≠ .idle ∧ (fieldCable 0x31000000FFFFFFFD).toNat < midSession.params.nCables ∧
      fieldOp 0x31000000FFFFFFFD = 0x3 ∧ (fieldArg 0x31000000FFFFFFFD).toNat ≤ 2 ^ 32 - 3) := by decide

theorem witness_TxSysexPacksAndSendsTheFirstTransfer :
    (blockOf 3 15 31).params.nCables ≤ (4 : Nibble).toNat ∧ 2 ^ 32 - 3 < (0xFFFFFFFE : Word32).toNat ∧
    ((3 : Nibble).toNat < (blockOf 3 15 31).params.nCables ∧ (0xFFFFFFFD : Word32).toNat ≤ 2 ^ 32 - 3) ∧
    lastSession.txState ≠ .idle ∧ State.reset.txState = .idle ∧ State.reset.pins.sendOk = true ∧
    (State.sendOk State.reset false).pins.sendOk = false := by decide

theorem witness_TxCompleteEndsOrResumesATransfer :
    State.reset.txState = .idle ∧ fixedBusy.txState = .fixedInflight ∧ lastSession.txState = .sxWaitLast ∧
    (midSession.txState = .sxWaitMid ∧ midSession.txPos.toNat < midSession.txLen.toNat) := by decide

theorem witness_FillSendsTheNextPacketsOfTheStream :
    ([0x03, 0x0A, 0x11, 0x18] : List Byte).length ≤ 2 ^ 32 - 3 ∧
    ((0 : Nibble).toNat < (State.src State.reset [0x03, 0x0A, 0x11, 0x18]).params.nCables ∧
      (State.src State.reset [0x03, 0x0A, 0x11, 0x18]).txState = .idle ∧
      ∀ k, k < 4 → (State.src State.reset [0x03, 0x0A, 0x11, 0x18]).srcMem.read
        ((State.src State.reset [0x03, 0x0A, 0x11, 0x18]).pins.src + k) = ([0x03, 0x0A, 0x11, 0x18] : List Byte)[k]?) ∧
    (midSession.txState = .sxWaitMid ∧ midSession.txLen.toNat = 4 + 2 ∧ midSession.txPos.toNat < midSession.txLen.toNat ∧
      midSession.txSrc = some 0 ∧
      ∀ k, k < 4 → midSession.srcMem.read (0 + k) = ([0x03, 0x0A, 0x11, 0x18] : List Byte)[k]?) := by decide

/-- TX_SYSEX of 03 0A 11 18 on cable 3 of a block with EP_MAX = 4, and its two completions. -/
def sessionOut : State := { State.src (blockOf 15 0 31) [0x03, 0x0A, 0x11, 0x18] with queue :=
  [cmd 0x3300000000000004, cmd 0x4000000000000000, cmd 0x4000000000000000] }

theorem witness_ASessionSendsTheFramedStream :
    sessionOut.queue = cmd 0x3300000000000004 :: [cmd 0x4000000000000000, cmd 0x4000000000000000] ∧
    decode (cmd 0x3300000000000004).cmd = .txSysex 3 (BitVec.ofNat 32 4) ∧
    (3 : Nibble).toNat < sessionOut.params.nCables ∧ sessionOut.txState = .idle ∧
    (∀ j ∈ [cmd 0x4000000000000000, cmd 0x4000000000000000], decode j.cmd = .txComplete) ∧
    (∀ j ∈ sessionOut.queue, j.pins.sendOk = true ∧ j.hostWrites = []) ∧
    (∀ k, k < 4 → sessionOut.srcMem.read ((cmd 0x3300000000000004).pins.src + k)
      = ([0x03, 0x0A, 0x11, 0x18] : List Byte)[k]?) ∧
    2 = ((4 + 4) / 3 + sessionOut.params.cap - 1) / sessionOut.params.cap := by decide

/-- The two packets of that session, into a block that also gets a realtime byte. -/
theorem witness_SysexRoundTrip :
    (∀ k, k < 4 → k % 3 = 2 → ([0x03, 0x0A, 0x11, 0x18] : List Byte)[k]? ≠ some 0xF0) ∧
    sentBytes (trace 3 sessionOut) = packetBytes [⟨0x34, 0xF0, 0x03, 0x0A⟩, ⟨0x37, 0x11, 0x18, 0xF7⟩] ∧
    ([cmd 0x1000000034F0030A, cmd 0x1000000035F80000, cmd 0x10000000371118F7].filterMap fun x => sysexPacket? 3 x.cmd)
      = ([⟨0x34, 0xF0, 0x03, 0x0A⟩, ⟨0x37, 0x11, 0x18, 0xF7⟩] : List Packet).map Packet.toWord ∧
    (∀ x ∈ [cmd 0x1000000034F0030A, cmd 0x1000000035F80000, cmd 0x10000000371118F7], decode x.cmd ≠ .reset) := by decide

theorem witness_SentPacketsAreWellFormed : ∃ (s t : State) (o : Outputs) (bytes : List Byte),
    s.Inv ∧ step s = .next t ∧ t.out = some o ∧ o.send = some bytes :=
  ⟨State.txc midSession, _, _, _, midSession_inv, rfl, rfl, rfl⟩

theorem witness_BytesInFlightAreNotWritten :
    (∃ t, exec (.txFixed 0 1 0xFA 0 0) fixedBusy = .next t) ∧ fixedBusy.txState = .fixedInflight ∧
    (∃ t, exec .txComplete lastSession = .next t) ∧ lastSession.txState = .sxWaitLast ∧
    (∃ t, exec (.txSysex 1 5) midSession = .next t) ∧ midSession.txState = .sxWaitMid :=
  ⟨⟨_, rfl⟩, by decide, ⟨_, rfl⟩, by decide, ⟨_, rfl⟩, by decide⟩

theorem witness_ReceiveAndTransmitAreDisjoint :
    (∃ t, exec (.pktSxStart 0 1 2) midSession = .next t) ∧ pathOf (.pktSxStart 0 1 2) = .receive ∧
    (∃ t, exec .txComplete midSession = .next t) ∧ pathOf .txComplete = .transmit :=
  ⟨⟨_, rfl⟩, rfl, ⟨_, rfl⟩, rfl⟩

/-- The ends of the ranges of 00_scope.md R12 to R16. -/
theorem witness_ParametersTakeTheLegalValues :
    (1 ≤ 1 ∧ 1 ≤ 16 ∧ 4 ≤ 4 * 1 ∧ 4 * 1 ≤ 1024 ∧ 1 ≤ 64) ∧ (1 ≤ 16 ∧ 16 ≤ 16 ∧ 4 ≤ 4 * 256 ∧ 4 * 256 ≤ 1024 ∧ 64 ≤ 64) := by
  decide

/-- The indices at the ends of the ranges of 10_state.md R52. -/
theorem witness_ReadReturnsTheRegister :
    (0x10 : Byte).toNat = 0x10 + (0 : Nibble).toNat ∧ (0x1F : Byte).toNat = 0x10 + (0xF : Nibble).toNat ∧
    (0x20 : Byte).toNat = 0x20 + (0 : Nibble).toNat ∧ (0x2F : Byte).toNat = 0x20 + (0xF : Nibble).toNat ∧
    ((0x09 : Byte) ≤ 0x09 ∧ (0x09 : Byte) ≤ 0x0F) ∧ ((0x09 : Byte) ≤ 0x0F ∧ (0x0F : Byte) ≤ 0x0F) ∧
    (0x30 : Byte) ≤ 0x30 ∧ (0x30 : Byte) ≤ 0xFF ∧ ¬ (0x30 : Byte) ≤ 0x2F := by decide

theorem witness_ResultsAreThoseOfTheCommand :
    (∃ t o, exec (.pktSxCont 0 1 2 3) State.reset = .next t ∧ t.out = some o ∧ pathOf (.pktSxCont 0 1 2 3) = .receive) ∧
    (∃ t o, exec .txComplete (State.sendOk midSession false) = .next t ∧ t.out = some o ∧ o.result = .transportFailure) ∧
    (∃ t o, exec .reservedOp7 State.reset = .next t ∧ t.out = some o ∧ pathOf .reservedOp7 = .control) ∧
    ∃ t o, exec (.read 0xFF) State.reset = .next t ∧ t.out = some o :=
  ⟨⟨_, _, rfl, rfl, rfl⟩, ⟨_, _, rfl, rfl, rfl⟩, ⟨_, _, rfl, rfl, rfl⟩, ⟨_, _, rfl, rfl⟩⟩

/-- The three ways to a refused send. -/
theorem witness_TransportFailureMeansARefusedSend :
    (∃ t o, exec (.stNoteOn 0 0x90 1 2) (State.sendOk State.reset false) = .next t ∧ t.out = some o ∧
      o.result = .transportFailure) ∧
    (∃ t o, exec (.txSysex 0 0) (State.sendOk State.reset false) = .next t ∧ t.out = some o ∧
      o.result = .transportFailure) ∧
    ∃ t o, exec .txComplete (State.sendOk midSession false) = .next t ∧ t.out = some o ∧ o.result = .transportFailure :=
  ⟨⟨_, _, rfl, rfl, rfl⟩, ⟨_, _, rfl, rfl, rfl⟩, ⟨_, _, rfl, rfl, rfl⟩⟩

theorem witness_RefusedCommandsWriteNothing :
    (∃ t o, exec (.stInvalidEox 0 1 0 0) State.reset = .next t ∧ t.out = some o ∧ o.result = .invalidMessage) ∧
    ∃ t o, exec (.txSysex 1 5) midSession = .next t ∧ t.out = some o ∧ o.result = .sessionBusy :=
  ⟨⟨_, _, rfl, rfl, rfl⟩, ⟨_, _, rfl, rfl, rfl⟩⟩

theorem witness_OutputsHaveTheirShape :
    (∃ t, exec (.pktSxComplete3 0 0x7E 0xF7) State.reset = .next t) ∧ ∃ t, exec .txComplete midSession = .next t :=
  ⟨⟨_, rfl⟩, ⟨_, rfl⟩⟩

theorem witness_SourceMemoryAndInputsAreNotWritten : ∃ t, exec .txComplete midSession = .next t := ⟨_, rfl⟩

/-- A session ended by its completion, by a refused send in it, and by a refused first send. -/
theorem witness_LastResultIsWrittenAtASessionsEnd :
    (∃ t, exec .txComplete { lastSession with txLastResult := .transportFailure } = .next t ∧ t.txLastResult = .ok) ∧
    (∃ t, exec .txComplete (State.sendOk midSession false) = .next t ∧ t.txLastResult = .transportFailure) ∧
    ∃ t, exec (.txSysex 0 0) (State.sendOk State.reset false) = .next t ∧ t.txLastResult = .transportFailure :=
  ⟨⟨_, rfl, rfl⟩, ⟨_, rfl, rfl⟩, ⟨_, rfl, rfl⟩⟩

theorem witness_DutifulStepsKeepTheTransportInAgreement : ∃ s t : State,
    s.TransportAgrees ∧ s.Dutiful ∧ s.held ≠ [] ∧ step s = .next t :=
  ⟨State.txc midSession, _, by unfold State.TransportAgrees; decide, by unfold State.Dutiful; decide, by decide, rfl⟩

end Sys2Proof.Tests
end

section
/-! PROOFS. The reset values of 10_state.md R55. -/

namespace Sys2Proof.Machine

/-- `u` has the values of the table of 10_state.md R55, tx_buf (unspecified there) left out. -/
def State.HoldsResetValues (u : State) : Prop :=
  u.txState = .idle ∧ u.busy = false ∧ u.txOccupied = false ∧
  u.txCable = 0 ∧ u.txLen = 0 ∧ u.txPos = 0 ∧ u.txFill = 0 ∧ u.txLastResult = .ok ∧
  u.fxPkt = ⟨0, 0, 0, 0⟩ ∧ u.txSrc = none ∧ (∀ c : Nibble, u.rxGet c = ⟨.idle, 0, 0⟩) ∧
  u.rxReservedCount = 0 ∧ u.rxDiscardCount = 0

theorem State.busy_eq_false_of_idle {s : State} (h : s.txState = .idle) : s.busy = false := by
  simp [State.busy, h]

theorem State.txOccupied_eq_false_of_idle {s : State} (h : s.txState = .idle) : s.txOccupied = false := by
  simp [State.txOccupied, h]

theorem State.holdsResetValues_resetWith (p : Params) : (State.resetWith p).HoldsResetValues :=
  have idle : (State.resetWith p).txState = .idle := rfl
  ⟨idle, State.busy_eq_false_of_idle idle, State.txOccupied_eq_false_of_idle idle,
    rfl, rfl, rfl, rfl, rfl, rfl, rfl, State.rxGet_resetWith p, rfl, rfl⟩

/-- What RESET keeps (the inputs to come, the source memory, the transport's record; R321) is none of R55's registers, so
those are the power-on values for the same parameters. -/
theorem State.holdsResetValues_resetBlock (s : State) : s.resetBlock.HoldsResetValues :=
  State.holdsResetValues_resetWith s.params

/-- Handing out the outputs of a step writes none of R55's registers. -/
theorem State.HoldsResetValues.answer {s : State} (h : s.HoldsResetValues) (o : Outputs) :
    (s.answer o).HoldsResetValues := h

/-- Settles O1: power-on by the definition of the reset state; RESET answers the reset block, with only its outputs and
what is no register of R55 different from power-on. -/
theorem resetHoldsTheResetValues : Obligations.ResetHoldsTheResetValues := by
  refine ⟨?powerOn, ?resetCommand⟩
  case powerOn =>
    rintro p _ rfl
    exact State.holdsResetValues_resetWith p
  case resetCommand =>
    intro s
    exact ⟨_, State.reply_eq s.resetBlock .ok, s.holdsResetValues_resetBlock.answer _⟩

end Sys2Proof.Machine
end

section
/-! PROOFS. The encoding's tables (30_encoding.md R105, R112) and the fields a command word's command reads (R126). -/

namespace Sys2Proof.Machine

/-! ## EncodeFixed by first byte -/

/-- The ranges of the status-class table (30_encoding.md R112) that are named by their high nibble. -/
theorem channelRange_iff (b : Byte) :
    (0x80 ≤ b ∧ b ≤ 0x8F ↔ b.extractLsb' 4 4 = 0x8) ∧ (0x90 ≤ b ∧ b ≤ 0x9F ↔ b.extractLsb' 4 4 = 0x9) ∧
    (0xA0 ≤ b ∧ b ≤ 0xAF ↔ b.extractLsb' 4 4 = 0xA) ∧ (0xB0 ≤ b ∧ b ≤ 0xBF ↔ b.extractLsb' 4 4 = 0xB) ∧
    (0xC0 ≤ b ∧ b ≤ 0xCF ↔ b.extractLsb' 4 4 = 0xC) ∧ (0xD0 ≤ b ∧ b ≤ 0xDF ↔ b.extractLsb' 4 4 = 0xD) ∧
    (0xE0 ≤ b ∧ b ≤ 0xEF ↔ b.extractLsb' 4 4 = 0xE) := by
  revert b; decide

/-- A byte below 0xF0 is in none of the system rows. -/
theorem not_system_of_nibble {b : Byte} (h : b.extractLsb' 4 4 ≠ 0xF) :
    b ≠ 0xF0 ∧ b ≠ 0xF1 ∧ b ≠ 0xF2 ∧ b ≠ 0xF3 ∧ b ≠ 0xF6 ∧ ¬0xF8 ≤ b := by
  revert b; decide

/-- A byte from 0xF0 on is a real-time byte, one that starts no message, or the only byte of its row. -/
theorem system_cases {b : Byte} (h : b.extractLsb' 4 4 = 0xF) :
    0xF8 ≤ b ∨ (b = 0xF4 ∨ b = 0xF5 ∨ b = 0xF7) ∨ b = 0xF0 ∨ b = 0xF1 ∨ b = 0xF2 ∨ b = 0xF3 ∨ b = 0xF6 := by
  revert b; decide

/-- EncodeFixed of a channel-voice byte (40_codec.md R144 to R150): its CIN is its high nibble, its length that CIN's
count. -/
theorem encodeFixed_class {len : Nat} {b0 b1 b2 : Byte} {hi : Nibble} (h : b0.extractLsb' 4 4 = hi)
    (hc : 8 ≤ hi.toNat ∧ hi ≠ 0xF) :
    encodeFixed len b0 b1 b2 = if len = cinCount hi then some hi else none := by
  have hr : 0x80 ≤ b0 ∧ b0 ≤ 0xEF := by subst h; revert b0; decide
  have hn := (channel_cin b0 hr).1
  simp only [h] at hn
  by_cases hl : len = 0
  · rw [hl, if_neg (by rw [hn]; split <;> decide)]; rfl
  · rw [encodeFixed_channel hr hl, h, hn]

/-- EncodeFixed of a first byte that starts no message (40_codec.md R157). -/
theorem encodeFixed_noClass {len : Nat} {b0 b1 b2 : Byte} (h : b0 < 0x80 ∨ b0 = 0xF4 ∨ b0 = 0xF5 ∨ b0 = 0xF7) :
    encodeFixed len b0 b1 b2 = none := by
  rcases h with h | rfl | rfl | rfl
  · exact encodeFixed_data h
  all_goals simp [encodeFixed]

/-- EncodeFixed of a first byte below 0xF0 gives the byte's high nibble, for a status byte and for no data byte. -/
theorem encodeFixed_channel_iff {len : Nat} {b0 b1 b2 : Byte} {cin hi : Nibble} (h : b0.extractLsb' 4 4 = hi)
    (hF : hi ≠ 0xF) :
    encodeFixed len b0 b1 b2 = some cin ↔ 8 ≤ hi.toNat ∧ len = cinCount hi ∧ cin = hi := by
  by_cases h8 : 8 ≤ hi.toNat
  · rw [encodeFixed_class h ⟨h8, hF⟩]
    simp [h8, eq_comm]
  · rw [encodeFixed_data (by subst h; revert b0; decide)]
    simp [h8]

/-- The channel-voice rows of the status-class table, by the high nibble of the first byte. -/
theorem channelRows_iff {len : Nat} {cin hi : Nibble} (h : hi ≠ 0xF) :
    8 ≤ hi.toNat ∧ len = cinCount hi ∧ cin = hi ↔
      (hi = 0x8 ∧ len = 3 ∧ cin = 0x8) ∨ (hi = 0x9 ∧ len = 3 ∧ cin = 0x9) ∨
      (hi = 0xA ∧ len = 3 ∧ cin = 0xA) ∨ (hi = 0xB ∧ len = 3 ∧ cin = 0xB) ∨
      (hi = 0xC ∧ len = 2 ∧ cin = 0xC) ∨ (hi = 0xD ∧ len = 2 ∧ cin = 0xD) ∨
      (hi = 0xE ∧ len = 3 ∧ cin = 0xE) := by
  rcases nibble_cases hi with
    rfl | rfl | rfl | rfl | rfl | rfl | rfl | rfl | rfl | rfl | rfl | rfl | rfl | rfl | rfl | rfl <;>
    simp [cinCount] at h ⊢

/-- EncodeFixed of a first byte from 0xF0 on (40_codec.md R151 to R157), by the system rows of the status-class table. -/
theorem encodeFixed_system_iff {len : Nat} {b0 b1 b2 : Byte} {cin : Nibble} (h : b0.extractLsb' 4 4 = 0xF)
    (hl : len ≤ 3) :
    encodeFixed len b0 b1 b2 = some cin ↔
      (b0 = 0xF0 ∧ len = 2 ∧ b1 = 0xF7 ∧ cin = 0x6) ∨ (b0 = 0xF0 ∧ len = 3 ∧ b2 = 0xF7 ∧ cin = 0x7) ∨
      (b0 = 0xF1 ∧ len = 2 ∧ cin = 0x2) ∨ (b0 = 0xF2 ∧ len = 3 ∧ cin = 0x3) ∨ (b0 = 0xF3 ∧ len = 2 ∧ cin = 0x2) ∨
      (b0 = 0xF6 ∧ len = 1 ∧ cin = 0x5) ∨ (0xF8 ≤ b0 ∧ len = 1 ∧ cin = 0x5) := by
  rcases system_cases h with hr | hn | rfl | rfl | rfl | rfl | rfl
  · obtain ⟨-, h0, h1, h2, h3, h6, -⟩ := realtime_ne hr
    simp only [encodeFixed_realtime hr, h0, h1, h2, h3, h6, hr, false_and, false_or, true_and]
    simp [eq_comm]
  · rw [encodeFixed_noClass (.inr hn)]
    rcases hn with rfl | rfl | rfl <;> simp
  all_goals interval_cases len <;> simp [encodeFixed, eq_comm]

/-- Settles O15: the ranges of the table are read off the high nibble of the first byte, which tells the channel-voice rows
from the system rows. -/
theorem encodeFixedIsTheStatusClassTable : Obligations.EncodeFixedIsTheStatusClassTable := by
  intro len b0 b1 b2 cin hl
  obtain ⟨r8, r9, rA, rB, rC, rD, rE⟩ := channelRange_iff b0
  simp only [← and_assoc, r8, r9, rA, rB, rC, rD, rE]
  simp only [and_assoc]
  by_cases hs : b0.extractLsb' 4 4 = 0xF
  · rw [encodeFixed_system_iff hs hl]
    simp [hs]
  · rw [encodeFixed_channel_iff rfl hs, channelRows_iff hs]
    obtain ⟨h0, h1, h2, h3, h6, hr⟩ := not_system_of_nibble hs
    simp only [h0, h1, h2, h3, h6, hr, false_and, or_false]

/-- Settles O13: the table is evaluated at each CIN. -/
theorem cinCountIsTheTable : Obligations.CinCountIsTheTable := by
  unfold Obligations.CinCountIsTheTable
  decide

/-! ## A TX_FIXED word does what TX_FIXED does -/

theorem exec_txFixed (c : Nibble) (len : BitVec 2) (b0 b1 b2 : Byte) (s : State) :
    exec (.txFixed c len b0 b1 b2) s = s.sendMessage c (fixedMessage len.toNat b0 b1 b2) := rfl

theorem fixedMessage_class {b0 b1 b2 : Byte} {hi : Nibble} (h : b0.extractLsb' 4 4 = hi)
    (hc : 8 ≤ hi.toNat ∧ hi ≠ 0xF) :
    fixedMessage (cinCount hi) b0 b1 b2 = some ⟨hi, [b0, b1, b2].take (cinCount hi)⟩ := by
  rw [fixedMessage, encodeFixed_class h hc, if_pos rfl]; rfl

theorem fixedMessage_sysex2 (b1 b2 : Byte) :
    fixedMessage 2 0xF0 b1 b2 = if b1 = 0xF7 then some ⟨0x6, [0xF0, b1]⟩ else none := by
  by_cases h : b1 = 0xF7
  · subst h; rfl
  · rw [if_neg h]
    simpa [fixedMessage, encodeFixed] using h

theorem fixedMessage_sysex3 (b1 b2 : Byte) :
    fixedMessage 3 0xF0 b1 b2 = if b2 = 0xF7 then some ⟨0x7, [0xF0, b1, b2]⟩ else none := by
  by_cases h : b2 = 0xF7
  · subst h; rfl
  · rw [if_neg h]
    simpa [fixedMessage, encodeFixed] using h

theorem exec_txFixed_noClass {b0 : Byte} (h : b0 < 0x80 ∨ b0 = 0xF4 ∨ b0 = 0xF5 ∨ b0 = 0xF7) (c : Nibble)
    (len : BitVec 2) (b1 b2 : Byte) (s : State) : exec (.txFixed c len b0 b1 b2) s = s.refuse .invalidMessage := by
  rw [exec_txFixed, fixedMessage, encodeFixed_noClass h]
  exact sendMessage_invalid (.inr rfl)

/-- A row that takes LEN `n` and sends the message TX_FIXED makes of `n` bytes does what TX_FIXED does, if the words of
another LEN do. -/
theorem exec_row {i j : Instr} {c : Nibble} {n len : BitVec 2} {b0 b1 b2 : Byte} {s : State}
    (hi : exec i s = s.sendMessage c (fixedMessage n.toNat b0 b1 b2))
    (hj : exec j s = exec (.txFixed c len b0 b1 b2) s) :
    exec (if len = n then i else j) s = exec (.txFixed c len b0 b1 b2) s := by
  split
  case isTrue hl => rw [hi, hl, exec_txFixed]
  case isFalse => exact hj

/-- `exec_row` for a channel-voice class: the row sends the bytes its CIN counts. -/
theorem exec_classRow {i : Instr} {c hi : Nibble} {n len : BitVec 2} {b0 b1 b2 : Byte} {s : State}
    (h : b0.extractLsb' 4 4 = hi) (hc : 8 ≤ hi.toNat ∧ hi ≠ 0xF) (hn : n.toNat = cinCount hi)
    (he : exec i s = s.sendMessage c (some ⟨hi, [b0, b1, b2].take (cinCount hi)⟩)) :
    exec (if len = n then i else .txFixed c len b0 b1 b2) s = exec (.txFixed c len b0 b1 b2) s :=
  exec_row (by rw [he, hn, fixedMessage_class h hc]) rfl

/-- A TX_FIXED word does what TX_FIXED does, whichever row of the status-class table it decodes to (42_transmit.md R221). -/
theorem exec_decodeFixed (c : Nibble) (len : BitVec 2) (b0 b1 b2 : Byte) (s : State) :
    exec (decodeFixed c len b0 b1 b2) s = exec (.txFixed c len b0 b1 b2) s := by
  obtain ⟨d8, d9, dA, dB, dC, dD, dE, dRt⟩ := decodeFixed_class c len b0 b1 b2
  rcases firstByte_cases b0 with h | h | h | h | h | h | h | h | rfl | rfl | rfl | rfl | rfl | rfl | rfl | rfl | h
  · rw [decodeFixed, if_pos h, exec_txFixed_noClass (.inl h)]; rfl
  · rw [d8 h]; exact exec_classRow h (by decide) rfl rfl
  · rw [d9 h]; exact exec_classRow h (by decide) rfl rfl
  · rw [dA h]; exact exec_classRow h (by decide) rfl rfl
  · rw [dB h]; exact exec_classRow h (by decide) rfl rfl
  · rw [dC h]; exact exec_classRow h (by decide) rfl rfl
  · rw [dD h]; exact exec_classRow h (by decide) rfl rfl
  · rw [dE h]; exact exec_classRow h (by decide) rfl rfl
  · have h2 := congrArg (s.sendMessage c) (fixedMessage_sysex2 b1 b2).symm
    have h3 := congrArg (s.sendMessage c) (fixedMessage_sysex3 b1 b2).symm
    exact exec_row (i := .stSysexComplete2 c b1) h2 (exec_row (i := .stSysexComplete3 c b1 b2) h3 rfl)
  · exact exec_row (i := .stMtcQuarterFrame c b1) rfl rfl
  · exact exec_row (i := .stSongPosition c b1 b2) rfl rfl
  · exact exec_row (i := .stSongSelect c b1) rfl rfl
  · exact (exec_txFixed_noClass (by simp) ..).symm
  · exact (exec_txFixed_noClass (by simp) ..).symm
  · exact exec_row (i := .stTuneRequest c) rfl rfl
  · exact (exec_txFixed_noClass (by simp) ..).symm
  · rw [dRt h]
    exact exec_row (by rw [fixedMessage, encodeFixed_realtime h]; rfl) rfl

/-! ## The fields a command reads -/

/-- EncodeFixed reads the first `len` bytes and no other. -/
theorem encodeFixed_congr {len : Nat} {b0 b1 b2 b0' b1' b2' : Byte}
    (h : [b0, b1, b2].take len = [b0', b1', b2'].take len) :
    encodeFixed len b0 b1 b2 = encodeFixed len b0' b1' b2' := by
  match len, h with
  | 0, _ => rfl
  | 1, h => cases h; rfl
  | 2, h => cases h; rfl
  | _ + 3, h => cases h; rfl

theorem fixedMessage_congr {len : Nat} {b0 b1 b2 b0' b1' b2' : Byte}
    (h : [b0, b1, b2].take len = [b0', b1', b2'].take len) :
    fixedMessage len b0 b1 b2 = fixedMessage len b0' b1' b2' := by
  rw [fixedMessage, fixedMessage, encodeFixed_congr h, h]

theorem decodeWord_rxFrame {w : Word64} (h : fieldOp w = 0x1) : decodeWord w = .rxFrame (fieldArg w) := by
  rw [decodeWord, h]; rfl

theorem decodeWord_txFixed {w : Word64} (h : fieldOp w = 0x2) :
    decodeWord w = decodeFixed (fieldCable w) (fieldLen w) (byteAt0 (fieldArg w)) (byteAt1 (fieldArg w))
      (byteAt2 (fieldArg w)) := by
  rw [decodeWord, h]; rfl

theorem decodeWord_txSysex {w : Word64} (h : fieldOp w = 0x3) :
    decodeWord w = .txSysex (fieldCable w) (fieldArg w) := by
  rw [decodeWord, h]; rfl

theorem decodeWord_read {w : Word64} (h : fieldOp w = 0x5) : decodeWord w = .read (byteAt3 (fieldArg w)) := by
  rw [decodeWord, h]; rfl

/-- The other commands have no operands (30_encoding.md R121): a word of theirs is read no further than its OP. -/
theorem decodeWord_congr_of_no_operands {w w' : Word64} (h : fieldOp w = fieldOp w') (h1 : fieldOp w ≠ 0x1)
    (h2 : fieldOp w ≠ 0x2) (h3 : fieldOp w ≠ 0x3) (h5 : fieldOp w ≠ 0x5) : decodeWord w = decodeWord w' := by
  rw [decodeWord, decodeWord, ← h]
  rcases nibble_cases (fieldOp w) with e | e | e | e | e | e | e | e | e | e | e | e | e | e | e | e
  · rw [e]; rfl
  · exact absurd e h1
  · exact absurd e h2
  · exact absurd e h3
  · rw [e]; rfl
  · exact absurd e h5
  all_goals rw [e]; rfl

/-- The first LEN bytes of ARG are the same when each byte below LEN is. -/
theorem take_bytes_congr {len : Nat} {b0 b1 b2 b0' b1' b2' : Byte} (hl : len ≤ 3) (h0 : 1 ≤ len → b0 = b0')
    (h1 : 2 ≤ len → b1 = b1') (h2 : 3 ≤ len → b2 = b2') :
    [b0, b1, b2].take len = [b0', b1', b2'].take len := by
  interval_cases len <;> simp_all

/-- Settles O11, by the command: RX_FRAME, TX_SYSEX and READ decode to the fields they read, TX_FIXED's message is made of the
first LEN bytes whichever row its word decodes to, and the other commands read no field. -/
theorem ignoredFieldsChangeNothing : Obligations.IgnoredFieldsChangeNothing := by
  intro w w' s hop hRx hFixed hSysex hRead
  by_cases h1 : fieldOp w = 0x1
  · rw [decodeWord_rxFrame h1, decodeWord_rxFrame (hop ▸ h1), hRx h1]
  by_cases h2 : fieldOp w = 0x2
  · obtain ⟨hc, hlen, hb0, hb1, hb2⟩ := hFixed h2
    have hm := fixedMessage_congr (take_bytes_congr (Nat.le_of_lt_succ (fieldLen w).isLt) hb0 hb1 hb2)
    rw [decodeWord_txFixed h2, decodeWord_txFixed (hop ▸ h2), exec_decodeFixed, exec_decodeFixed, exec_txFixed,
      exec_txFixed, hm, hc, hlen]
  by_cases h3 : fieldOp w = 0x3
  · obtain ⟨hc, ha⟩ := hSysex h3
    rw [decodeWord_txSysex h3, decodeWord_txSysex (hop ▸ h3), hc, ha]
  by_cases h5 : fieldOp w = 0x5
  · rw [decodeWord_read h5, decodeWord_read (hop ▸ h5), hRead h5]
  rw [decodeWord_congr_of_no_operands hop h1 h2 h3 h5]

end Sys2Proof.Machine
end

section
/-! PROOFS. The packet codec (40_codec.md): Decode of a packet's value, Pack, the groups of a framed stream, and the first
bytes that make no message. -/

namespace Sys2Proof.Machine

/-! ## Decode -/

/-- Decode of a packet in P notation (30_encoding.md R103) reads its fields. -/
theorem Packet.decode_ofWord (p : Word32) : (Packet.ofWord p).decode =
    ⟨pktCable p, pktCin p, cinCount (pktCin p), [byteAt1 p, byteAt2 p, byteAt3 p].take (cinCount (pktCin p))⟩ := by
  obtain ⟨hcable, hcin⟩ := nibbles_byteAt0 p
  simp only [Packet.decode, Packet.ofWord, hcable, hcin]

/-- Settles O14: the two nibbles of byte 0 are the packet's cable and CIN. -/
theorem decodeReadsTheMeaningfulBytes : Obligations.DecodeReadsTheMeaningfulBytes :=
  Packet.decode_ofWord

/-! ## Pack -/

/-- Two nibbles side by side are the byte `(cable << 4) | cin` of 40_codec.md R158. -/
theorem append_eq_shiftLeft_or (c cin : Nibble) : (c ++ cin : Byte) = (c.setWidth 8 <<< 4) ||| cin.setWidth 8 := by
  rw [BitVec.append_def, BitVec.shiftLeftZeroExtend_eq, BitVec.setWidth'_eq]

/-- Bytes 1 to 3 of Pack are the group, padded with zeros. -/
theorem pack_data (c cin : Nibble) {g : List Byte} (h : g.length ≤ 3) :
    [(pack c cin g).b1, (pack c cin g).b2, (pack c cin g).b3] = g ++ List.replicate (3 - g.length) 0 := by
  match g, h with
  | [], _ | [_], _ | [_, _], _ | [_, _, _], _ => rfl

/-- Settles O17: byte 0 and the data bytes of Pack, each by its lemma. -/
theorem packPadsWithZeros : Obligations.PackPadsWithZeros :=
  fun c cin _ h => ⟨append_eq_shiftLeft_or c cin, pack_data c cin h⟩

/-- A packed group comes back whole when its CIN counts its bytes: the padding is past the meaningful bytes. -/
theorem decode_pack {cin : Nibble} {g : List Byte} (c : Nibble) (h : cinCount cin = g.length) :
    (pack c cin g).decode = ⟨c, cin, g.length, g⟩ := by
  have hlen : g.length ≤ 3 := h ▸ cinCount_le cin
  obtain ⟨hcable, hcin⟩ := nibbles_append c cin
  have hb0 : (pack c cin g).b0 = c ++ cin := rfl
  simp only [Packet.decode, hb0, hcable, hcin, h, pack_data c cin hlen, List.take_left]

/-! ## Groups of a framed stream -/

/-- The CIN of a final group of 1 to 3 bytes counts them (40_codec.md R159, 30_encoding.md R105). -/
theorem cinCount_final {k : Nat} (h1 : 1 ≤ k) (h3 : k ≤ 3) : cinCount (BitVec.ofNat 4 (4 + k)) = k := by
  interval_cases k <;> rfl

/-- A group of a framed stream comes back from EncodeSysex when it is final or has three bytes. -/
theorem decode_encodeSysex {g : List Byte} {final : Bool} (c : Nibble) (h1 : 1 ≤ g.length) (h3 : g.length ≤ 3)
    (hf : final = false → g.length = 3) :
    (encodeSysex c g final).decode = ⟨c, if final then BitVec.ofNat 4 (4 + g.length) else 0x4, g.length, g⟩ := by
  cases final with
  | true => exact decode_pack c (cinCount_final h1 h3)
  | false => exact decode_pack c (hf rfl).symm

/-- Settles O18: EncodeSysex is Pack with that CIN by definition, and the CIN counts the group. -/
theorem sysexGroupsDecodeBack : Obligations.SysexGroupsDecodeBack :=
  fun c _ _ h1 h3 hf => ⟨rfl, decode_encodeSysex c h1 h3 hf⟩

/-! ## First bytes that make no message -/

/-- Settles O37: EncodeFixed has no row for these first bytes, and each of the three rows of TX_FIXED for them is a
refusal. -/
theorem messagesWithNoClassAreInvalid : Obligations.MessagesWithNoClassAreInvalid := by
  intro c len b0 b1 b2 s
  refine ⟨fun hb _ => encodeFixed_noClass (hb.imp_left fun hdata => ?below), State.refuse_eq s _, State.refuse_eq s _,
    State.refuse_eq s _⟩
  case below => bv_omega

end Sys2Proof.Machine
end

section
/-! PROOFS. The receive path (41_receive.md): what RX_FRAME and the packet rows do with each kind of packet. -/

namespace Sys2Proof.Machine

/-! ## By the kind of the packet -/

/-- What a packet's cable does with a packet of kind `k` and meaningful bytes `d` (41_receive.md R180). -/
def rxByKind (k : Kind) (c : Nibble) (d : List Byte) (s : State) : Answer :=
  match k with
  | .reserved   => rxReserved s
  | .msg        => rxMessage c d s
  | .sxStart    => rxSxStart c d s
  | .sxCont     => rxSxCont c d s
  | .sxEnd      => rxSxEnd c d s
  | .sxComplete => rxSxComplete c d s

/-- A CIN that is not reserved counts at least one byte (30_encoding.md R105). -/
theorem cinCount_ne_zero {n : Nibble} (h : 2 ≤ n.toNat) : cinCount n ≠ 0 := by
  revert n; decide

/-- The CIN of a packet whose kind is not RESERVED is not reserved (30_encoding.md R106). -/
theorem two_le_cin_of_kind_ne_reserved {n : Nibble} {b : Byte} (h : kind n b ≠ .reserved) : 2 ≤ n.toNat := by
  by_contra hn
  have hcin : n = 0x0 ∨ n = 0x1 := by bv_omega
  exact h (if_pos hcin)

/-- RX_FRAME hands a packet whose CIN is not reserved to its cable, by its kind. -/
theorem exec_rxFrame_onCable {p : Word32} (s : State) (h : 2 ≤ (pktCin p).toNat) :
    exec (.rxFrame p) s = s.onCable (pktCable p) (rxByKind (kindOf p) (pktCable p) (meaningful p)) := by
  have hf := execRxFrame_pktWord (pktCable p) (pktCin p) (byteAt1 p) (byteAt2 p) (byteAt3 p) s
  rw [pktWord_fields, if_neg (cinCount_ne_zero h)] at hf
  exact hf

/-- Of two rows of one CIN, the one byte 1 has chosen hands the packet to its cable, by the kind byte 1 has chosen. -/
theorem exec_ite_onCable {b v : Byte} {i j : Instr} {k k' : Kind} {c : Nibble} {d : List Byte} {s : State}
    (hi : b = v → exec i s = s.onCable c (rxByKind k c d)) (hj : exec j s = s.onCable c (rxByKind k' c d)) :
    exec (if b = v then i else j) s = s.onCable c (rxByKind (if b = v then k else k') c d) := by
  split
  case isTrue hb => exact hi hb
  case isFalse => exact hj

/-- The row of a packet whose CIN is not reserved hands it to its cable, by its kind. -/
theorem exec_decodePacket_onCable {p : Word32} (s : State) (h : 2 ≤ (pktCin p).toNat) :
    exec (decodePacket p) s = s.onCable (pktCable p) (rxByKind (kindOf p) (pktCable p) (meaningful p)) := by
  rw [decodePacket, kindOf, meaningful]
  generalize pktCin p = n at h
  generalize byteAt1 p = b1
  obtain ⟨-, -, k4, k5, k6, k7, -⟩ := kind_table b1
  rcases nibble_cases n with
    rfl | rfl | rfl | rfl | rfl | rfl | rfl | rfl | rfl | rfl | rfl | rfl | rfl | rfl | rfl | rfl
  · exact absurd h (by decide)
  · exact absurd h (by decide)
  · rfl
  · rfl
  · rw [k4]; exact exec_ite_onCable (by rintro rfl; rfl) rfl
  · rw [k5]; exact exec_ite_onCable (by rintro rfl; rfl) rfl
  · rw [k6]; exact exec_ite_onCable (by rintro rfl; rfl) rfl
  · rw [k7]; exact exec_ite_onCable (by rintro rfl; rfl) rfl
  all_goals rfl

/-- Settles O20: what every receive command may write (`ReceiveAnswer`) is no transmit state, and its result is OK. -/
theorem rxFrameAlwaysAnswersOk : Obligations.RxFrameAlwaysAnswersOk := by
  intro p s
  obtain ⟨v, m, n, es, hAnswer, -⟩ := execRxFrame_answer p s
  exact ⟨_, es, hAnswer, rfl, rfl, rfl, rfl, rfl, rfl, rfl, rfl, rfl, rfl, rfl, rfl, rfl⟩

/-! ## Packets that are dropped -/

theorem exec_rxFrame_reserved {p : Word32} (s : State) (h : pktCin p = 0x0 ∨ pktCin p = 0x1) :
    exec (.rxFrame p) s = rxReserved s := by
  have hcount : cinCount (pktCin p) = 0 := by rcases h with h | h <;> rw [h] <;> rfl
  have hf := execRxFrame_pktWord (pktCable p) (pktCin p) (byteAt1 p) (byteAt2 p) (byteAt3 p) s
  rw [pktWord_fields, if_pos hcount] at hf
  exact hf

/-- Settles O21: both rows are the drop of a reserved packet, and so is RX_FRAME of a CIN that counts no byte. -/
theorem reservedPacketsAreCounted : Obligations.ReservedPacketsAreCounted :=
  fun _ s => ⟨rxReserved_eq s, rxReserved_eq s, fun _ h => exec_rxFrame_reserved s h⟩

/-- Settles O22: RX_FRAME and the row both go through the cable check. -/
theorem packetsOnAbsentCablesAreDiscarded : Obligations.PacketsOnAbsentCablesAreDiscarded := by
  intro p s hcin hcable
  rw [exec_rxFrame_onCable s hcin, exec_decodePacket_onCable s hcin, onCable_of_ge _ hcable]
  exact ⟨rxDiscard_eq s, rxDiscard_eq s⟩

/-! ## Packets on a cable the block has -/

/-- Settles O23: the kind says the CIN is not reserved, and the cable check passes. -/
theorem messagePacketsAreDelivered : Obligations.MessagePacketsAreDelivered := by
  intro p s hmsg hcable
  have hkind : kindOf p ≠ .reserved := by simp [hmsg]
  have hcin : 2 ≤ (pktCin p).toNat := two_le_cin_of_kind_ne_reserved hkind
  rw [exec_rxFrame_onCable s hcin, onCable_of_lt _ hcable, hmsg]
  exact rxMessage_eq ..

/-- RX_FRAME of a packet in its fields, whose kind and meaningful bytes are `k` and `d`. -/
theorem exec_rxFrame_pktWord {c n : Nibble} {b1 b2 b3 : Byte} {s : State} {k : Kind} {d : List Byte}
    (hc : c.toNat < s.params.nCables) (hn : 2 ≤ n.toNat) (hk : kind n b1 = k)
    (hd : [b1, b2, b3].take (cinCount n) = d) :
    exec (.rxFrame (pktWord c n b1 b2 b3)) s = rxByKind k c d s := by
  rw [exec_rxFrame_onCable s (by simpa using hn), pktCable_pktWord, onCable_of_lt _ hc]
  simp [kindOf, meaningful, hk, hd]

/-- A packet row, and RX_FRAME of its packet, do with the packet what its kind says. -/
theorem exec_row_and_frame {row : Instr} {c n : Nibble} {b1 b2 b3 : Byte} {s : State} {k : Kind} {d : List Byte}
    (hc : c.toNat < s.params.nCables) (hn : 2 ≤ n.toNat) (hk : kind n b1 = k)
    (hd : [b1, b2, b3].take (cinCount n) = d) (hrow : exec row s = s.onCable c (rxByKind k c d)) :
    ∀ i ∈ [row, .rxFrame (pktWord c n b1 b2 b3)], exec i s = rxByKind k c d s := by
  rw [onCable_of_lt _ hc] at hrow
  simp only [List.forall_mem_cons]
  exact ⟨hrow, exec_rxFrame_pktWord hc hn hk hd, by simp⟩

theorem exec_row_message {row : Instr} {c : Nibble} {d : List Byte} {s : State} (hc : c.toNat < s.params.nCables)
    (hrow : exec row s = s.onCable c (rxMessage c d)) :
    exec row s = .next { s with out := some ⟨.ok, 0, [.message c d], none⟩ } := by
  rw [hrow, onCable_of_lt _ hc, rxMessage_eq]

theorem exec_rxFrame_message {c n : Nibble} {b1 b2 b3 : Byte} {d : List Byte} {s : State}
    (hc : c.toNat < s.params.nCables) (hk : kind n b1 = .msg) (hd : [b1, b2, b3].take (cinCount n) = d) :
    exec (.rxFrame (pktWord c n b1 b2 b3)) s = .next { s with out := some ⟨.ok, 0, [.message c d], none⟩ } := by
  have hp : kindOf (pktWord c n b1 b2 b3) = .msg := by simpa [kindOf] using hk
  have hm : meaningful (pktWord c n b1 b2 b3) = d := by simpa [meaningful] using hd
  have hf := messagePacketsAreDelivered (pktWord c n b1 b2 b3) s hp (by simpa using hc)
  rwa [hm, pktCable_pktWord] at hf

/-- Settles O24: CINs 0x3, 0x8 to 0xB and 0xE are of kind MSG and count three bytes. -/
theorem threeByteMessageRowsAreDelivered : Obligations.ThreeByteMessageRowsAreDelivered := by
  intro c b1 b2 b3 s hc
  exact ⟨exec_row_message hc rfl, exec_rxFrame_message hc rfl rfl, exec_row_message hc rfl,
    exec_rxFrame_message hc rfl rfl, exec_row_message hc rfl, exec_rxFrame_message hc rfl rfl,
    exec_row_message hc rfl, exec_rxFrame_message hc rfl rfl, exec_row_message hc rfl,
    exec_rxFrame_message hc rfl rfl, exec_row_message hc rfl, exec_rxFrame_message hc rfl rfl⟩

/-- Settles O25: CINs 0x2, 0xC and 0xD count two bytes, 0x5 (byte 1 not 0xF7) and 0xF one, and Decode reads no byte past
the count. -/
theorem shortMessageRowsAreDelivered : Obligations.ShortMessageRowsAreDelivered := by
  intro c b1 b2 b3 s hc
  refine ⟨exec_row_message hc rfl, exec_rxFrame_message hc rfl rfl, exec_row_message hc rfl,
    exec_rxFrame_message hc rfl rfl, exec_row_message hc rfl, exec_rxFrame_message hc rfl rfl,
    exec_row_message hc rfl, fun hb => exec_rxFrame_message hc ?singleSys rfl, exec_row_message hc rfl,
    exec_rxFrame_message hc rfl rfl⟩
  case singleSys => exact if_neg hb

/-- Settles O26: SxStart reads nothing of the reassembler, so its one equation holds in either state. -/
theorem aSysexStartOpensTheSession : Obligations.ASysexStartOpensTheSession := by
  intro c b2 b3 s hc i hi
  rw [exec_row_and_frame (k := .sxStart) hc (by decide) rfl rfl rfl i hi]
  exact rxSxStart_eq c [0xF0, b2, b3] s

/-- Settles O27, by the state of the reassembler. -/
theorem aSysexContinueIsCountedAndDelivered : Obligations.ASysexContinueIsCountedAndDelivered := by
  intro c b1 b2 b3 s hc hb i hi
  have hkind : kind 0x4 b1 = .sxCont := if_neg hb
  rw [exec_row_and_frame hc (by decide) hkind rfl rfl i hi]
  refine ⟨fun receiving => ?_, fun idle => ?_⟩
  · exact rxSxCont_receiving [b1, b2, b3] receiving
  · exact (rxSxCont_idle [b1, b2, b3] idle).trans (rxDiscard_eq s)

/-- Settles O29: SxComplete reads nothing of the reassembler; its data are those of three bytes alone. -/
theorem aCompleteSysexIsAStartAndAnEnd : Obligations.ACompleteSysexIsAStartAndAnEnd := by
  intro c b2 b3 s hc
  refine ⟨fun i hi => ?_, fun i hi => ?_⟩
  · rw [exec_row_and_frame (k := .sxComplete) hc (by decide) rfl rfl rfl i hi]
    exact rxSxComplete_eq c [0xF0, b2] s
  · rw [exec_row_and_frame (k := .sxComplete) hc (by decide) rfl rfl rfl i hi]
    exact rxSxComplete_eq c [0xF0, b2, b3] s

/-- The three rows of an end, and RX_FRAME of their packets. -/
theorem exec_sxEnd_rows {c : Nibble} (b1 b2 b3 : Byte) {s : State} (hc : c.toNat < s.params.nCables) :
    (∀ i ∈ [Instr.pktSxEnd1 c, .rxFrame (pktWord c 0x5 0xF7 b2 b3)], exec i s = rxSxEnd c [0xF7] s) ∧
    (b1 ≠ 0xF0 → ∀ i ∈ [Instr.pktSxEnd2 c b1 b2, .rxFrame (pktWord c 0x6 b1 b2 b3)],
      exec i s = rxSxEnd c [b1, b2] s) ∧
    (b1 ≠ 0xF0 → ∀ i ∈ [Instr.pktSxEnd3 c b1 b2 b3, .rxFrame (pktWord c 0x7 b1 b2 b3)],
      exec i s = rxSxEnd c [b1, b2, b3] s) :=
  ⟨exec_row_and_frame (k := .sxEnd) hc (by decide) rfl rfl rfl,
    fun hb => exec_row_and_frame (k := .sxEnd) hc (by decide) (if_neg hb) rfl rfl,
    fun hb => exec_row_and_frame (k := .sxEnd) hc (by decide) (if_neg hb) rfl rfl⟩

/-- Settles O28, by the state of the reassembler: the elapsed time is the truncated difference. -/
theorem aSysexEndClosesTheSession : Obligations.ASysexEndClosesTheSession := by
  intro c b1 b2 b3 s hc
  obtain ⟨end1, end2, end3⟩ := exec_sxEnd_rows b1 b2 b3 hc
  refine ⟨fun receiving => ?_, fun idle => ?_⟩
  · refine ⟨tsTrunc s.params (s.pins.now - (s.rxGet c).start), tsTrunc_sub_toNat .., fun i hi => ?_,
      fun hb i hi => ?_, fun hb i hi => ?_⟩
    · exact (end1 i hi).trans (rxSxEnd_receiving [0xF7] receiving)
    · exact (end2 hb i hi).trans (rxSxEnd_receiving [b1, b2] receiving)
    · exact (end3 hb i hi).trans (rxSxEnd_receiving [b1, b2, b3] receiving)
  · have orphan (d : List Byte) := (rxSxEnd_idle d idle).trans (rxDiscard_eq s)
    refine ⟨fun i hi => (end1 i hi).trans (orphan _), fun hb => ?_⟩
    exact List.forall_mem_append (l₁ := [_, _]).2
      ⟨fun i hi => (end2 hb i hi).trans (orphan _), fun i hi => (end3 hb i hi).trans (orphan _)⟩

end Sys2Proof.Machine
end

section
/-! PROOFS. The control commands (43_control.md): READ by the register map of 10_state.md R52, the reserved commands and
RESET. -/

namespace Sys2Proof.Machine

/-! ## The register map by index -/

theorem toNat_nibbles (b : Byte) :
    b.toNat = 16 * (b.extractLsb' 4 4 : Nibble).toNat + (b.extractLsb' 0 4 : Nibble).toNat := by
  revert b; decide

theorem byte_eq_append {b : Byte} {hi lo : Nibble} (h : b.toNat = 16 * hi.toNat + lo.toNat) : b = hi ++ lo := by
  obtain ⟨hhi, hlo⟩ := nibbles_append hi lo
  have happend := toNat_nibbles (hi ++ lo)
  rw [hhi, hlo] at happend
  exact BitVec.eq_of_toNat_eq (h.trans happend.symm)

theorem State.regValue_rxCount (s : State) (c : Nibble) : s.regValue ((0x1 : Nibble) ++ c) = s.rxCountReg c := by
  obtain ⟨hhi, hlo⟩ := nibbles_append 0x1 c
  rw [State.regValue, hhi, hlo]
  rfl

theorem State.regValue_rxStart (s : State) (c : Nibble) : s.regValue ((0x2 : Nibble) ++ c) = s.rxStartReg c := by
  obtain ⟨hhi, hlo⟩ := nibbles_append 0x2 c
  rw [State.regValue, hhi, hlo]
  rfl

/-- The indices the map of R52 does not name read 0. -/
theorem State.regValue_unmapped (s : State) {idx : Byte} (h : (0x09 ≤ idx ∧ idx ≤ 0x0F) ∨ 0x30 ≤ idx) :
    s.regValue idx = 0 := by
  have hidx := toNat_nibbles idx
  have range : (9 ≤ idx.toNat ∧ idx.toNat ≤ 15) ∨ 48 ≤ idx.toNat := h
  rw [State.regValue]
  split
  case h_12 => rfl
  all_goals omega

/-! ## The computed registers -/

theorem State.rxCountReg_eq (s : State) (c : Nibble) :
    s.rxCountReg c = if c.toNat < s.params.nCables then (s.rxGet c).count else 0 := by
  simp only [State.rxCountReg, State.cableOk, decide_eq_true_eq]

theorem State.rxStartReg_toNat (s : State) (c : Nibble) :
    (s.rxStartReg c).toNat = if c.toNat < s.params.nCables then (s.rxGet c).start.toNat % 2 ^ 32 else 0 := by
  simp only [State.rxStartReg, State.cableOk, decide_eq_true_eq]
  split
  · exact BitVec.toNat_setWidth ..
  · rfl

/-- BUSY is set in the two states of an active session (10_state.md R33). -/
theorem State.busy_eq_decide (s : State) : s.busy = decide (s.txState = .sxWaitMid ∨ s.txState = .sxWaitLast) := by
  rw [State.busy]
  cases s.txState <;> rfl

/-- FX_PKT has the bytes of the packet, byte 0 in the top bits (30_encoding.md R103). -/
theorem Packet.bytesAt_toWord (p : Packet) :
    byteAt0 p.toWord = p.b0 ∧ byteAt1 p.toWord = p.b1 ∧ byteAt2 p.toWord = p.b2 ∧ byteAt3 p.toWord = p.b3 :=
  ⟨byteAt0_append .., byteAt1_append .., byteAt2_append .., byteAt3_append ..⟩

/-! ## READ -/

/-- Settles O48: READ answers the register map's value, which is taken apart index by index. -/
theorem readReturnsTheRegister : Obligations.ReadReturnsTheRegister := by
  intro idx s
  refine ⟨s.regValue idx, exec_read idx s, ?txStatus, ?txLen, ?txPos, ?txFill, ?reserved, ?discard, ?rxState, ?config,
    ?fxPkt, fun c hc => ?rxCount, fun c hc => ?rxStart, s.regValue_unmapped⟩
  case txStatus =>
    rintro rfl
    obtain ⟨hstate, hbusy, hzero, hresult, hzeros⟩ := s.txStatus_fields
    have hreg : s.regValue 0x00 = s.txStatus := rfl
    rw [hreg, hstate, hresult]
    refine ⟨?_, hbusy.trans s.busy_eq_decide, hzero, ?_, hzeros⟩
    · cases s.txState <;> rfl
    · cases s.txLastResult <;> rfl
  case txLen | txPos | txFill | reserved | discard => rintro rfl; rfl
  case rxState =>
    rintro rfl
    exact ⟨s.rxStateWord_top, fun c => (s.rxStateWord_bit c).trans (s.rxStateBit_eq c)⟩
  case config =>
    rintro rfl
    exact configReg_fields s.params
  case fxPkt =>
    rintro rfl
    exact s.fxPkt.bytesAt_toWord
  case rxCount => rw [byte_eq_append (hi := 0x1) hc, s.regValue_rxCount, s.rxCountReg_eq]
  case rxStart => rw [byte_eq_append (hi := 0x2) hc, s.regValue_rxStart, s.rxStartReg_toNat]

/-! ## The reserved commands -/

/-- Settles O38: each of the ten arms refuses with InvalidMessage. -/
theorem reservedCommandsAreInvalid : Obligations.ReservedCommandsAreInvalid := by
  intro s i hi
  fin_cases hi <;> exact State.refuse_eq s .invalidMessage

/-! ## RESET -/

/-- Settles O49: RESET answers from the reset block, which holds the reset values of 10_state.md R55 and keeps what is
outside the block. -/
theorem resetCommandRestoresTheResetValues : Obligations.ResetCommandRestoresTheResetValues := by
  intro s
  obtain ⟨hstate, -, -, hcable, hlen, hpos, hfill, hresult, hpkt, hsrc, hrx, hreserved, hdiscard⟩ :=
    s.holdsResetValues_resetBlock
  exact ⟨s.resetBlock.answer ⟨.ok, 0, [], none⟩, State.reply_eq s.resetBlock .ok, rfl, hstate, hcable, hlen, hpos,
    hfill, hresult, hpkt, hsrc, hrx, hreserved, hdiscard, rfl, rfl, rfl, rfl, rfl⟩

end Sys2Proof.Machine
end

section
/-! PROOFS. Exceptions (60_exceptions.md): a new transfer while one is under way. -/

namespace Sys2Proof.Machine

/-! ## A busy block -/

/-- TX_FIXED of a message EncodeFixed takes, in a block that is not IDLE (60_exceptions.md R282). -/
theorem exec_txFixed_busy {c cin : Nibble} {len : BitVec 2} {b0 b1 b2 : Byte} {s : State}
    (hc : c.toNat < s.params.nCables) (hm : encodeFixed len.toNat b0 b1 b2 = some cin) (hs : s.txState ≠ .idle) :
    exec (.txFixed c len b0 b1 b2) s = .next { s with out := some ⟨.sessionBusy, 0, [], none⟩ } := by
  rw [exec_txFixed, fixedMessage, hm]
  exact sendMessage_busy ⟨cin, [b0, b1, b2].take len.toNat⟩ hc hs

/-- Settles O39, by the command: a TX_FIXED word does what TX_FIXED does, whichever row it decodes to, and a TX_SYSEX word
decodes to TX_SYSEX; each finds its operands valid and the block occupied. -/
theorem busyBlocksTurnAwayNewTransfers : Obligations.BusyBlocksTurnAwayNewTransfers := by
  intro w s hs hc h
  rcases h with ⟨hop, cin, hm⟩ | ⟨hop, hn⟩
  · rw [decodeWord_txFixed hop, exec_decodeFixed]
    exact exec_txFixed_busy hc hm hs
  · rw [decodeWord_txSysex hop]
    exact execTxSysex_busy hc hn hs

end Sys2Proof.Machine
end

section
/-! PROOFS. The encoder and the decoder against each other (30_encoding.md sections 2 to 4). -/

namespace Sys2Proof.Machine

/-! ## Decode after encode -/

/-- A TX_FIXED word decodes by the fields it was packed from (30_encoding.md R112, R123). -/
@[simp] theorem decode_fixedWord (c : Nibble) (len : BitVec 2) (b0 b1 b2 : Byte) :
    decode (.word (fixedWord c len b0 b1 b2)) = decodeFixed c len b0 b1 b2 := by
  rw [decode, fixedWord, decodeWord_txFixed (fieldOp_cmdWord ..)]
  simp

/-- The index of a READ word (30_encoding.md R125). -/
@[simp] theorem byteAt3_zero_append (idx : Byte) : byteAt3 (0#24 ++ idx) = idx := by
  ext i hi
  simp [byteAt3]
  grind

/-- A row that takes the one LEN of its first byte leaves TX_FIXED every other LEN. -/
theorem ite_row_eq_txFixed {i : Instr} {c : Nibble} {n len : BitVec 2} {b0 b1 b2 : Byte} (hn : statusLens b0 = [n])
    (hlen : (statusLens b0).contains len = false) :
    (if len = n then i else .txFixed c len b0 b1 b2) = .txFixed c len b0 b1 b2 := by
  rw [hn] at hlen
  exact if_neg (by simpa using hlen)

/-- The words TX_FIXED keeps for itself: their first byte starts messages, of other lengths than LEN (log 4). -/
theorem decodeFixed_txFixed {b0 : Byte} {len : BitVec 2} (hfirst : invalidFirst b0 = false)
    (hlen : (statusLens b0).contains len = false) (c : Nibble) (b1 b2 : Byte) :
    decodeFixed c len b0 b1 b2 = .txFixed c len b0 b1 b2 := by
  obtain ⟨d8, d9, dA, dB, dC, dD, dE, dRt⟩ := decodeFixed_class c len b0 b1 b2
  obtain ⟨s8, s9, sA, sB, sC, sD, sE, sRt⟩ := statusLens_class b0
  rcases firstByte_cases b0 with h | h | h | h | h | h | h | h | rfl | rfl | rfl | rfl | rfl | rfl | rfl | rfl | h
  · exact absurd hfirst (by simp only [invalidFirst, decide_eq_true h, Bool.true_or, Bool.true_eq_false, not_false_iff])
  · rw [d8 h]; exact ite_row_eq_txFixed (s8 h).1 hlen
  · rw [d9 h]; exact ite_row_eq_txFixed (s9 h).1 hlen
  · rw [dA h]; exact ite_row_eq_txFixed (sA h).1 hlen
  · rw [dB h]; exact ite_row_eq_txFixed (sB h).1 hlen
  · rw [dC h]; exact ite_row_eq_txFixed (sC h).1 hlen
  · rw [dD h]; exact ite_row_eq_txFixed (sD h).1 hlen
  · rw [dE h]; exact ite_row_eq_txFixed (sE h).1 hlen
  · have hlens : ¬len = 2 ∧ ¬len = 3 := by simpa [statusLens] using hlen
    exact (if_neg hlens.1).trans (if_neg hlens.2)
  · exact ite_row_eq_txFixed (by decide) hlen
  · exact ite_row_eq_txFixed (by decide) hlen
  · exact ite_row_eq_txFixed (by decide) hlen
  · exact absurd hfirst (by decide)
  · exact absurd hfirst (by decide)
  · exact ite_row_eq_txFixed (by decide) hlen
  · exact absurd hfirst (by decide)
  · rw [dRt h]; exact ite_row_eq_txFixed (sRt h).1 hlen

theorem decodeFixed_undefined {b0 : Byte} (h : b0 = 0xF4 ∨ b0 = 0xF5) (c : Nibble) (len : BitVec 2) (b1 b2 : Byte) :
    decodeFixed c len b0 b1 b2 = .stInvalidUndefined c len b0 b1 b2 := by
  rcases h with rfl | rfl <;> rfl

/-- Settles O7, by the row: the fields of a packed word are what was packed, and well-formedness says that the fields lead
the decoder to that row. -/
theorem decodeOfEncodeIsTheInstruction : Obligations.DecodeOfEncodeIsTheInstruction := by
  intro i hwf
  cases i <;> simp only [encode, decode_fixedWord]
  case txFixed c len b0 b1 b2 =>
    obtain ⟨hfirst, hlen⟩ : invalidFirst b0 = false ∧ (statusLens b0).contains len = false := by
      simpa only [Instr.wf, Bool.and_eq_true, Bool.not_eq_true'] using hwf
    exact decodeFixed_txFixed hfirst hlen c b1 b2
  case stNoteOff c b0 b1 b2 =>
    obtain ⟨d8, -⟩ := decodeFixed_class c 3 b0 b1 b2
    exact d8 (beq_iff_eq.1 hwf)
  case stNoteOn c b0 b1 b2 =>
    obtain ⟨-, d9, -⟩ := decodeFixed_class c 3 b0 b1 b2
    exact d9 (beq_iff_eq.1 hwf)
  case stPolyPressure c b0 b1 b2 =>
    obtain ⟨-, -, dA, -⟩ := decodeFixed_class c 3 b0 b1 b2
    exact dA (beq_iff_eq.1 hwf)
  case stControlChange c b0 b1 b2 =>
    obtain ⟨-, -, -, dB, -⟩ := decodeFixed_class c 3 b0 b1 b2
    exact dB (beq_iff_eq.1 hwf)
  case stProgramChange c b0 b1 =>
    obtain ⟨-, -, -, -, dC, -⟩ := decodeFixed_class c 2 b0 b1 0
    exact dC (beq_iff_eq.1 hwf)
  case stChannelPressure c b0 b1 =>
    obtain ⟨-, -, -, -, -, dD, -⟩ := decodeFixed_class c 2 b0 b1 0
    exact dD (beq_iff_eq.1 hwf)
  case stPitchBend c b0 b1 b2 =>
    obtain ⟨-, -, -, -, -, -, dE, -⟩ := decodeFixed_class c 3 b0 b1 b2
    exact dE (beq_iff_eq.1 hwf)
  case stRealtime c b0 =>
    obtain ⟨-, -, -, -, -, -, -, dRt⟩ := decodeFixed_class c 1 b0 0 0
    exact dRt (of_decide_eq_true hwf)
  case stInvalidData => exact if_pos (of_decide_eq_true hwf)
  case stInvalidUndefined c len b0 b1 b2 =>
    exact decodeFixed_undefined (by simpa only [Instr.wf, Bool.or_eq_true, beq_iff_eq] using hwf) c len b1 b2
  case pktSxCont | pktSingleSys | pktSxEnd2 | pktSxEnd3 =>
    simpa [decode, decodePacket] using bne_iff_ne.1 hwf
  all_goals simp [decode, decodePacket, decodeWord, decodeFixed]

/-! ## Decoded instructions -/

theorem wf_ite {p : Prop} [Decidable p] {i j : Instr} (hi : i.wf = true) (hj : ¬p → j.wf = true) :
    (if p then i else j).wf = true := by
  split
  case isTrue => exact hi
  case isFalse hp => exact hj hp

/-- A row that takes the one LEN of its first byte, and TX_FIXED for every other LEN, are well-formed. -/
theorem wf_ite_row {i : Instr} {c : Nibble} {n len : BitVec 2} {b0 b1 b2 : Byte}
    (hlens : statusLens b0 = [n] ∧ invalidFirst b0 = false) (hi : i.wf = true) :
    (if len = n then i else .txFixed c len b0 b1 b2).wf = true := by
  obtain ⟨hn, hfirst⟩ := hlens
  exact wf_ite hi fun hlen => by simp [Instr.wf, hfirst, hn, hlen]

theorem wf_decodeFixed (c : Nibble) (len : BitVec 2) (b0 b1 b2 : Byte) : (decodeFixed c len b0 b1 b2).wf = true := by
  obtain ⟨d8, d9, dA, dB, dC, dD, dE, dRt⟩ := decodeFixed_class c len b0 b1 b2
  obtain ⟨s8, s9, sA, sB, sC, sD, sE, sRt⟩ := statusLens_class b0
  rcases firstByte_cases b0 with h | h | h | h | h | h | h | h | rfl | rfl | rfl | rfl | rfl | rfl | rfl | rfl | h
  · rw [decodeFixed, if_pos h]; exact decide_eq_true h
  · rw [d8 h]; exact wf_ite_row (s8 h) (beq_iff_eq.2 h)
  · rw [d9 h]; exact wf_ite_row (s9 h) (beq_iff_eq.2 h)
  · rw [dA h]; exact wf_ite_row (sA h) (beq_iff_eq.2 h)
  · rw [dB h]; exact wf_ite_row (sB h) (beq_iff_eq.2 h)
  · rw [dC h]; exact wf_ite_row (sC h) (beq_iff_eq.2 h)
  · rw [dD h]; exact wf_ite_row (sD h) (beq_iff_eq.2 h)
  · rw [dE h]; exact wf_ite_row (sE h) (beq_iff_eq.2 h)
  · refine wf_ite (i := .stSysexComplete2 c b1) rfl fun h2 => wf_ite (i := .stSysexComplete3 c b1 b2) rfl fun h3 => ?_
    simpa [Instr.wf, invalidFirst, statusLens] using And.intro h2 h3
  · exact wf_ite_row (by decide) rfl
  · exact wf_ite_row (by decide) rfl
  · exact wf_ite_row (by decide) rfl
  · rfl
  · rfl
  · exact wf_ite_row (by decide) rfl
  · rfl
  · rw [dRt h]; exact wf_ite_row (sRt h) (decide_eq_true h)

theorem wf_decodeWord (w : Word64) : (decodeWord w).wf = true := by
  by_cases h2 : fieldOp w = 0x2
  · rw [decodeWord_txFixed h2]; exact wf_decodeFixed ..
  rw [decodeWord]
  rcases nibble_cases (fieldOp w) with h | h | h | h | h | h | h | h | h | h | h | h | h | h | h | h
  case inr.inr.inl => exact absurd h h2
  all_goals rw [h]; rfl

theorem wf_decodePacket (p : Word32) : (decodePacket p).wf = true := by
  rw [decodePacket]
  rcases nibble_cases (pktCin p) with h | h | h | h | h | h | h | h | h | h | h | h | h | h | h | h <;> rw [h]
  case inr.inr.inr.inr.inl => exact wf_ite rfl bne_iff_ne.2
  case inr.inr.inr.inr.inr.inl => exact wf_ite rfl bne_iff_ne.2
  case inr.inr.inr.inr.inr.inr.inl => exact wf_ite rfl bne_iff_ne.2
  case inr.inr.inr.inr.inr.inr.inr.inl => exact wf_ite rfl bne_iff_ne.2
  all_goals rfl

/-- Settles O8: every arm of the two decoders hands out a well-formed instruction. -/
theorem decodedInstructionsAreWellFormed : Obligations.DecodedInstructionsAreWellFormed := by
  intro x
  cases x with
  | word w => exact wf_decodeWord w
  | frame p => exact wf_decodePacket p

/-! ## The widest row -/

/-- Some row of that mnemonic fits the word, and no row with a wider mask does (30_encoding.md R109). -/
def WidestRow {n : Nat} (rows : List (OpRow n)) (w : BitVec n) (mnemonic : String) : Prop :=
  ∃ r ∈ rows, r.mnemonic = mnemonic ∧ r.fits w = true ∧ ∀ r' ∈ rows, r'.fits w = true → r'.mask &&& r.mask = r'.mask

/-- Two rows that fit one word ask for the same bits where both masks are set. -/
theorem OpRow.patterns_agree {n : Nat} {r r' : OpRow n} {w : BitVec n} (h : r.fits w = true) (h' : r'.fits w = true) :
    r.pattern &&& r'.mask = r'.pattern &&& r.mask := by
  rw [OpRow.fits, beq_iff_eq] at h h'
  rw [← h, ← h', BitVec.and_assoc, BitVec.and_assoc, BitVec.and_comm r.mask]

/-! ### Command words -/

/-- A status class shares a word with no other, and its mask is wider than TX_FIXED's. -/
theorem mask_le_statusRow : ∀ r ∈ statusRows, ∀ r' ∈ cmdRows, r.pattern &&& r'.mask = r'.pattern &&& r.mask →
    r'.mask &&& r.mask = r'.mask := by
  decide

theorem mask_of_mem_opRows : ∀ r ∈ opRows, r.mask = 0xF000000000000000 := by decide

/-- The TX_FIXED words the status classes take: no message starts with the first byte, or LEN is of its row. -/
def inStatusRow (len : BitVec 2) (b0 : Byte) : Bool := invalidFirst b0 || (statusLens b0).contains len

/-- What a status-class row says of a word that fits it. -/
theorem inStatusRow_of_fits_row {r : OpRow 64} {w : Word64} (lm lp : BitVec 2) (bm bp : Byte)
    (hm : r.mask = (0xF : Nibble) ++ (0 : BitVec 26) ++ lm ++ bm ++ (0 : BitVec 24))
    (hp : r.pattern = (2 : Nibble) ++ (0 : BitVec 26) ++ lp ++ bp ++ (0 : BitVec 24))
    (hrow : ∀ len b0, len &&& lm = lp → b0 &&& bm = bp → inStatusRow len b0 = true) (hf : r.fits w = true) :
    fieldOp w = 0x2 ∧ inStatusRow (fieldLen w) (byteAt0 (fieldArg w)) = true := by
  obtain ⟨hop, hlen, hb0⟩ := (OpRow.fits_fixed_iff w lm lp bm bp hm hp).1 hf
  exact ⟨hop, hrow _ _ hlen hb0⟩

theorem inStatusRow_of_fits {w : Word64} : ∀ r ∈ statusRows, r.fits w = true →
    fieldOp w = 0x2 ∧ inStatusRow (fieldLen w) (byteAt0 (fieldArg w)) = true := by
  simp only [statusRows, List.forall_mem_cons]
  exact ⟨inStatusRow_of_fits_row 3 2 0xFF 0xF0 rfl rfl (by decide),
    inStatusRow_of_fits_row 3 3 0xFF 0xF0 rfl rfl (by decide),
    inStatusRow_of_fits_row 3 2 0xFF 0xF1 rfl rfl (by decide),
    inStatusRow_of_fits_row 3 3 0xFF 0xF2 rfl rfl (by decide),
    inStatusRow_of_fits_row 3 2 0xFF 0xF3 rfl rfl (by decide),
    inStatusRow_of_fits_row 3 1 0xFF 0xF6 rfl rfl (by decide),
    inStatusRow_of_fits_row 0 0 0xFF 0xF7 rfl rfl (by decide),
    inStatusRow_of_fits_row 3 1 0xF8 0xF8 rfl rfl (by decide),
    inStatusRow_of_fits_row 0 0 0xFE 0xF4 rfl rfl (by decide),
    inStatusRow_of_fits_row 3 3 0xF0 0x80 rfl rfl (by decide),
    inStatusRow_of_fits_row 3 3 0xF0 0x90 rfl rfl (by decide),
    inStatusRow_of_fits_row 3 3 0xF0 0xA0 rfl rfl (by decide),
    inStatusRow_of_fits_row 3 3 0xF0 0xB0 rfl rfl (by decide),
    inStatusRow_of_fits_row 3 2 0xF0 0xC0 rfl rfl (by decide),
    inStatusRow_of_fits_row 3 2 0xF0 0xD0 rfl rfl (by decide),
    inStatusRow_of_fits_row 3 3 0xF0 0xE0 rfl rfl (by decide),
    inStatusRow_of_fits_row 0 0 0x80 0x00 rfl rfl (by decide), by simp⟩

/-- A status-class row, by what its mask and pattern have at LEN and at the first byte, is the widest it fits. -/
theorem widestRow_status {w : Word64} (m : String) (lm lp : BitVec 2) (bm bp : Byte)
    (hr : ⟨m, (0xF : Nibble) ++ (0 : BitVec 26) ++ lm ++ bm ++ (0 : BitVec 24),
      (2 : Nibble) ++ (0 : BitVec 26) ++ lp ++ bp ++ (0 : BitVec 24)⟩ ∈ statusRows)
    (hop : fieldOp w = 0x2) (hlen : fieldLen w &&& lm = lp) (hb0 : byteAt0 (fieldArg w) &&& bm = bp) :
    WidestRow cmdRows w m :=
  have hf := (OpRow.fits_fixed_iff (r := ⟨m, _, _⟩) w lm lp bm bp rfl rfl).2 ⟨hop, hlen, hb0⟩
  ⟨_, List.mem_append_left _ hr, rfl, hf,
    fun r' hr' hf' => mask_le_statusRow _ hr r' hr' (OpRow.patterns_agree hf hf')⟩

/-- The row of an OP is the widest where no status class fits. -/
theorem widestRow_op {w : Word64} (m : String) (op : Nibble)
    (hr : ⟨m, 0xF000000000000000, op ++ (0 : BitVec 60)⟩ ∈ opRows) (hop : fieldOp w = op)
    (hno : op = 0x2 → inStatusRow (fieldLen w) (byteAt0 (fieldArg w)) = false) : WidestRow cmdRows w m := by
  refine ⟨_, List.mem_append_right _ hr, rfl, OpRow.fits_op op rfl rfl hop, fun r' hr' hf' => ?_⟩
  rcases List.mem_append.1 hr' with hs | ho
  · obtain ⟨h2, hrow⟩ := inStatusRow_of_fits r' hs hf'
    rw [hno (hop ▸ h2)] at hrow
    cases hrow
  · rw [mask_of_mem_opRows r' ho]; exact BitVec.and_self

/-- The row of a TX_FIXED word: a status class at its LEN, and TX_FIXED at the others. -/
theorem widestRow_ite {i : Instr} {w : Word64} {c : Nibble} {n : BitVec 2} {b0 b1 b2 : Byte} (hop : fieldOp w = 0x2)
    (hb0 : byteAt0 (fieldArg w) = b0) (hlens : statusLens b0 = [n] ∧ invalidFirst b0 = false)
    (hi : fieldLen w = n → WidestRow cmdRows w i.mnemonic) :
    WidestRow cmdRows w (if fieldLen w = n then i else .txFixed c (fieldLen w) b0 b1 b2).mnemonic := by
  obtain ⟨hn, hfirst⟩ := hlens
  split
  case isTrue h => exact hi h
  case isFalse h =>
    exact widestRow_op "TX_FIXED" 0x2 (by decide) hop fun _ => by simp [inStatusRow, hb0, hfirst, hn, h]

/-- `widestRow_ite` for a channel-voice class, named by its high nibble. -/
theorem widestRow_class {i : Instr} {w : Word64} {c : Nibble} {n : BitVec 2} {b0 b1 b2 : Byte} {hi : Nibble}
    (m : String)
    (hr : ⟨m, (0xF : Nibble) ++ (0 : BitVec 26) ++ (3 : BitVec 2) ++ (0xF0 : Byte) ++ (0 : BitVec 24),
      (2 : Nibble) ++ (0 : BitVec 26) ++ n ++ (hi ++ (0 : Nibble) : Byte) ++ (0 : BitVec 24)⟩ ∈ statusRows)
    (hop : fieldOp w = 0x2) (hb0 : byteAt0 (fieldArg w) = b0) (hc : b0.extractLsb' 4 4 = hi)
    (hlens : statusLens b0 = [n] ∧ invalidFirst b0 = false) (hm : i.mnemonic = m) :
    WidestRow cmdRows w (if fieldLen w = n then i else .txFixed c (fieldLen w) b0 b1 b2).mnemonic := by
  refine widestRow_ite hop hb0 hlens fun hlen => ?_
  rw [hm]
  exact widestRow_status m 3 n 0xF0 (hi ++ (0 : Nibble)) hr hop (hlen ▸ BitVec.and_allOnes)
    (hb0 ▸ and_of_inClass (beq_iff_eq.2 hc))

/-- `widestRow_ite` for a class that holds the one first byte `b0`. -/
theorem widestRow_single {i : Instr} {w : Word64} {c : Nibble} {n : BitVec 2} {b0 b1 b2 : Byte} (m : String)
    (hr : ⟨m, (0xF : Nibble) ++ (0 : BitVec 26) ++ (3 : BitVec 2) ++ (0xFF : Byte) ++ (0 : BitVec 24),
      (2 : Nibble) ++ (0 : BitVec 26) ++ n ++ b0 ++ (0 : BitVec 24)⟩ ∈ statusRows)
    (hop : fieldOp w = 0x2) (hb0 : byteAt0 (fieldArg w) = b0)
    (hlens : statusLens b0 = [n] ∧ invalidFirst b0 = false) (hm : i.mnemonic = m) :
    WidestRow cmdRows w (if fieldLen w = n then i else .txFixed c (fieldLen w) b0 b1 b2).mnemonic := by
  refine widestRow_ite hop hb0 hlens fun hlen => ?_
  rw [hm]
  exact widestRow_status m 3 n 0xFF b0 hr hop (hlen ▸ BitVec.and_allOnes) (hb0 ▸ BitVec.and_allOnes)

theorem and_of_data {b : Byte} (h : b < 0x80) : b &&& 0x80 = 0x00 := by
  revert b; decide

theorem and_of_realtime {b : Byte} (h : 0xF8 ≤ b) : b &&& 0xF8 = 0xF8 := by
  revert b; decide

theorem widestRow_decodeFixed {w : Word64} (hop : fieldOp w = 0x2) (c : Nibble) (b1 b2 : Byte) :
    WidestRow cmdRows w (decodeFixed c (fieldLen w) (byteAt0 (fieldArg w)) b1 b2).mnemonic := by
  generalize hb0 : byteAt0 (fieldArg w) = b0
  obtain ⟨d8, d9, dA, dB, dC, dD, dE, dRt⟩ := decodeFixed_class c (fieldLen w) b0 b1 b2
  obtain ⟨s8, s9, sA, sB, sC, sD, sE, sRt⟩ := statusLens_class b0
  rcases firstByte_cases b0 with h | h | h | h | h | h | h | h | rfl | rfl | rfl | rfl | rfl | rfl | rfl | rfl | h
  · rw [decodeFixed, if_pos h]
    exact widestRow_status "TX_FIXED.ST_INVALID_DATA" 0 0 0x80 0x00 (by decide) hop BitVec.and_zero
      (hb0 ▸ and_of_data h)
  · rw [d8 h]; exact widestRow_class "TX_FIXED.ST_NOTE_OFF" (by decide) hop hb0 h (s8 h) rfl
  · rw [d9 h]; exact widestRow_class "TX_FIXED.ST_NOTE_ON" (by decide) hop hb0 h (s9 h) rfl
  · rw [dA h]; exact widestRow_class "TX_FIXED.ST_POLY_PRESSURE" (by decide) hop hb0 h (sA h) rfl
  · rw [dB h]; exact widestRow_class "TX_FIXED.ST_CONTROL_CHANGE" (by decide) hop hb0 h (sB h) rfl
  · rw [dC h]; exact widestRow_class "TX_FIXED.ST_PROGRAM_CHANGE" (by decide) hop hb0 h (sC h) rfl
  · rw [dD h]; exact widestRow_class "TX_FIXED.ST_CHANNEL_PRESSURE" (by decide) hop hb0 h (sD h) rfl
  · rw [dE h]; exact widestRow_class "TX_FIXED.ST_PITCH_BEND" (by decide) hop hb0 h (sE h) rfl
  · show WidestRow cmdRows w (if fieldLen w = 2 then Instr.stSysexComplete2 c b1
      else if fieldLen w = 3 then .stSysexComplete3 c b1 b2 else .txFixed c (fieldLen w) 0xF0 b1 b2).mnemonic
    split_ifs with h2 h3
    · exact widestRow_status "TX_FIXED.ST_SYSEX_COMPLETE2" 3 2 0xFF 0xF0 (by decide) hop (by rw [h2]; rfl)
        (by rw [hb0]; rfl)
    · exact widestRow_status "TX_FIXED.ST_SYSEX_COMPLETE3" 3 3 0xFF 0xF0 (by decide) hop (by rw [h3]; rfl)
        (by rw [hb0]; rfl)
    · exact widestRow_op "TX_FIXED" 0x2 (by decide) hop fun _ => by
        simpa [inStatusRow, hb0, invalidFirst, statusLens] using And.intro h2 h3
  · exact widestRow_single "TX_FIXED.ST_MTC_QUARTER_FRAME" (by decide) hop hb0 (by decide) rfl
  · exact widestRow_single "TX_FIXED.ST_SONG_POSITION" (by decide) hop hb0 (by decide) rfl
  · exact widestRow_single "TX_FIXED.ST_SONG_SELECT" (by decide) hop hb0 (by decide) rfl
  · exact widestRow_status "TX_FIXED.ST_INVALID_UNDEFINED" 0 0 0xFE 0xF4 (by decide) hop BitVec.and_zero
      (by rw [hb0]; rfl)
  · exact widestRow_status "TX_FIXED.ST_INVALID_UNDEFINED" 0 0 0xFE 0xF4 (by decide) hop BitVec.and_zero
      (by rw [hb0]; rfl)
  · exact widestRow_single "TX_FIXED.ST_TUNE_REQUEST" (by decide) hop hb0 (by decide) rfl
  · exact widestRow_status "TX_FIXED.ST_INVALID_EOX" 0 0 0xFF 0xF7 (by decide) hop BitVec.and_zero
      (by rw [hb0]; rfl)
  · rw [dRt h]
    exact widestRow_ite hop hb0 (sRt h) fun hlen =>
      widestRow_status "TX_FIXED.ST_REALTIME" 3 1 0xF8 0xF8 (by decide) hop (by rw [hlen]; rfl)
        (hb0 ▸ and_of_realtime h)

/-- Settles O10: the row of an OP is the widest where no status class fits, and a TX_FIXED word is of the class of its first
byte and LEN. -/
theorem aCommandWordDecodesToItsWidestRow : Obligations.ACommandWordDecodesToItsWidestRow := by
  intro w
  by_cases h2 : fieldOp w = 0x2
  · rw [decodeWord_txFixed h2]
    exact widestRow_decodeFixed h2 ..
  have row (m : String) (op : Nibble) (hr : ⟨m, 0xF000000000000000, op ++ (0 : BitVec 60)⟩ ∈ opRows)
      (hop : fieldOp w = op) : WidestRow cmdRows w m := widestRow_op m op hr hop fun h => absurd (hop.trans h) h2
  rw [decodeWord]
  rcases nibble_cases (fieldOp w) with h | h | h | h | h | h | h | h | h | h | h | h | h | h | h | h
  · rw [h]; exact row "RESERVED_OP_0" 0x0 (by decide) h
  · rw [h]; exact row "RX_FRAME" 0x1 (by decide) h
  · exact absurd h h2
  · rw [h]; exact row "TX_SYSEX" 0x3 (by decide) h
  · rw [h]; exact row "TX_COMPLETE" 0x4 (by decide) h
  · rw [h]; exact row "READ" 0x5 (by decide) h
  · rw [h]; exact row "RESET" 0x6 (by decide) h
  · rw [h]; exact row "RESERVED_OP_7" 0x7 (by decide) h
  · rw [h]; exact row "RESERVED_OP_8" 0x8 (by decide) h
  · rw [h]; exact row "RESERVED_OP_9" 0x9 (by decide) h
  · rw [h]; exact row "RESERVED_OP_A" 0xA (by decide) h
  · rw [h]; exact row "RESERVED_OP_B" 0xB (by decide) h
  · rw [h]; exact row "RESERVED_OP_C" 0xC (by decide) h
  · rw [h]; exact row "RESERVED_OP_D" 0xD (by decide) h
  · rw [h]; exact row "RESERVED_OP_E" 0xE (by decide) h
  · rw [h]; exact row "RESERVED_OP_F" 0xF (by decide) h

/-! ### Packets -/

/-- The packets of the four rows with a byte-1 condition (30_encoding.md R109). -/
def HasMarker (cin : Nibble) (b1 : Byte) : Prop :=
  (cin = 0x4 ∧ b1 = 0xF0) ∨ (cin = 0x5 ∧ b1 = 0xF7) ∨ (cin = 0x6 ∧ b1 = 0xF0) ∨ (cin = 0x7 ∧ b1 = 0xF0)

theorem fits_markerRow {r : OpRow 32} {p : Word32} (n : Nibble) (b : Byte)
    (hm : r.mask = (0 : Nibble) ++ (0xF : Nibble) ++ (0xFF : Byte) ++ (0 : BitVec 16))
    (hp : r.pattern = (0 : Nibble) ++ n ++ b ++ (0 : BitVec 16)) :
    r.fits p = true ↔ pktCin p = n ∧ byteAt1 p = b := by
  have hall : byteAt1 p &&& 0xFF = byteAt1 p := BitVec.and_allOnes
  rw [OpRow.fits_pkt_iff p n 0xFF b hm hp, hall]

theorem hasMarker_of_fits {p : Word32} : ∀ r ∈ pktRows.take 4, r.fits p = true →
    HasMarker (pktCin p) (byteAt1 p) := by
  simp only [pktRows, List.take_succ_cons, List.forall_mem_cons]
  exact ⟨fun hf => .inl ((fits_markerRow 0x4 0xF0 rfl rfl).1 hf),
    fun hf => .inr (.inl ((fits_markerRow 0x5 0xF7 rfl rfl).1 hf)),
    fun hf => .inr (.inr (.inl ((fits_markerRow 0x6 0xF0 rfl rfl).1 hf))),
    fun hf => .inr (.inr (.inr ((fits_markerRow 0x7 0xF0 rfl rfl).1 hf))), by simp⟩

/-- A row of the packet table asks for byte 1 or for the CIN alone. -/
theorem pktRows_masks : ∀ r ∈ pktRows, r.mask &&& 0x0FFF0000 = r.mask ∧ (r ∈ pktRows.take 4 ∨ r.mask = 0x0F000000) := by
  decide

theorem widestRow_marker {p : Word32} (m : String) (n : Nibble) (b : Byte)
    (hr : ⟨m, 0x0FFF0000, (0 : Nibble) ++ n ++ b ++ (0 : BitVec 16)⟩ ∈ pktRows) (hcin : pktCin p = n)
    (hb1 : byteAt1 p = b) : WidestRow pktRows p m :=
  ⟨_, hr, rfl, (fits_markerRow n b rfl rfl).2 ⟨hcin, hb1⟩, fun r' hr' _ => (pktRows_masks r' hr').1⟩

theorem widestRow_cin {p : Word32} (m : String) (n : Nibble)
    (hr : ⟨m, 0x0F000000, (0 : Nibble) ++ n ++ (0 : Byte) ++ (0 : BitVec 16)⟩ ∈ pktRows) (hcin : pktCin p = n)
    (hno : ¬HasMarker n (byteAt1 p)) : WidestRow pktRows p m := by
  refine ⟨_, hr, rfl, (OpRow.fits_pkt_iff p n 0 0 rfl rfl).2 ⟨hcin, BitVec.and_zero⟩, fun r' hr' hf' => ?_⟩
  rcases (pktRows_masks r' hr').2 with hw | hw
  · exact absurd (hcin ▸ hasMarker_of_fits r' hw hf') hno
  · rw [hw]; exact BitVec.and_self

/-- The two rows of a CIN with a byte-1 condition. -/
theorem widestRow_byte1 {p : Word32} {n : Nibble} {v : Byte} {i j : Instr} (mi mj : String)
    (hri : ⟨mi, 0x0FFF0000, (0 : Nibble) ++ n ++ v ++ (0 : BitVec 16)⟩ ∈ pktRows)
    (hrj : ⟨mj, 0x0F000000, (0 : Nibble) ++ n ++ (0 : Byte) ++ (0 : BitVec 16)⟩ ∈ pktRows) (hcin : pktCin p = n)
    (hno : byteAt1 p ≠ v → ¬HasMarker n (byteAt1 p)) (hi : i.mnemonic = mi) (hj : j.mnemonic = mj) :
    WidestRow pktRows p (if byteAt1 p = v then i else j).mnemonic := by
  split
  case isTrue hb1 => rw [hi]; exact widestRow_marker mi n v hri hcin hb1
  case isFalse hb1 => rw [hj]; exact widestRow_cin mj n hrj hcin (hno hb1)

/-- Settles O9, by the CIN: a row with a byte-1 condition has the widest mask of all, and where none fits the row of the CIN
is the only one. -/
theorem aPacketDecodesToItsWidestRow : Obligations.APacketDecodesToItsWidestRow := by
  intro p
  show WidestRow pktRows p (decodePacket p).mnemonic
  rw [decodePacket]
  rcases nibble_cases (pktCin p) with h | h | h | h | h | h | h | h | h | h | h | h | h | h | h | h <;> rw [h]
  · exact widestRow_cin "PKT_RESERVED0" 0x0 (by decide) h (by simp [HasMarker])
  · exact widestRow_cin "PKT_RESERVED1" 0x1 (by decide) h (by simp [HasMarker])
  · exact widestRow_cin "PKT_SYSCOM2" 0x2 (by decide) h (by simp [HasMarker])
  · exact widestRow_cin "PKT_SYSCOM3" 0x3 (by decide) h (by simp [HasMarker])
  · exact widestRow_byte1 "PKT_SX_START" "PKT_SX_CONT" (by decide) (by decide) h (by simp [HasMarker]) rfl rfl
  · exact widestRow_byte1 "PKT_SX_END1" "PKT_SINGLE_SYS" (by decide) (by decide) h (by simp [HasMarker]) rfl rfl
  · exact widestRow_byte1 "PKT_SX_COMPLETE2" "PKT_SX_END2" (by decide) (by decide) h (by simp [HasMarker]) rfl rfl
  · exact widestRow_byte1 "PKT_SX_COMPLETE3" "PKT_SX_END3" (by decide) (by decide) h (by simp [HasMarker]) rfl rfl
  · exact widestRow_cin "PKT_NOTE_OFF" 0x8 (by decide) h (by simp [HasMarker])
  · exact widestRow_cin "PKT_NOTE_ON" 0x9 (by decide) h (by simp [HasMarker])
  · exact widestRow_cin "PKT_POLY_PRESSURE" 0xA (by decide) h (by simp [HasMarker])
  · exact widestRow_cin "PKT_CONTROL_CHANGE" 0xB (by decide) h (by simp [HasMarker])
  · exact widestRow_cin "PKT_PROGRAM_CHANGE" 0xC (by decide) h (by simp [HasMarker])
  · exact widestRow_cin "PKT_CHANNEL_PRESSURE" 0xD (by decide) h (by simp [HasMarker])
  · exact widestRow_cin "PKT_PITCH_BEND" 0xE (by decide) h (by simp [HasMarker])
  · exact widestRow_cin "PKT_SINGLE_BYTE" 0xF (by decide) h (by simp [HasMarker])

/-! ## Words written out -/

/-- Settles O12: each of the twelve words is decoded as it stands. -/
theorem writtenOutWordsDecode : Obligations.WrittenOutWordsDecode := by
  unfold Obligations.WrittenOutWordsDecode
  decide

end Sys2Proof.Machine
end

section
/-! PROOFS. A step (20_memory.md R84, 60_exceptions.md R290) and the invariant of 10_state.md section 4. -/

namespace Sys2Proof.Machine

/-! ## Steps -/

/-- Every command answers a next state (60_exceptions.md R290). -/
theorem exec_next (i : Instr) (s : State) : ∃ t, exec i s = .next t := by
  rcases exec_cases i s with ⟨-, _, _, _, _, e, -⟩ | ⟨hp, hc, hs⟩ | ⟨c, n, rfl⟩ | rfl | ⟨idx, rfl⟩ | rfl | ⟨-, -, -, e⟩
  case inl => exact ⟨_, e⟩
  case inr.inl =>
    obtain ⟨c, m, e, -⟩ := exec_fixed hp hc hs
    rw [e]
    rcases sendMessage_cases s c m with ⟨-, h⟩ | ⟨_, -, -, ⟨-, h⟩ | ⟨-, -, h⟩ | ⟨-, -, h⟩⟩ <;> exact ⟨_, h⟩
  case inr.inr.inl =>
    by_cases hv : s.params.nCables ≤ c.toNat ∨ 2 ^ 32 - 3 < n.toNat
    · exact ⟨_, execTxSysex_invalid hv⟩
    by_cases hs : s.txState = .idle
    · obtain ⟨_, _, _, h, -⟩ := fill_spec (s.openSession c (n + 2) s.pins.src)
      exact ⟨_, (execTxSysex_fills (by omega) (by omega) hs).trans h⟩
    · exact ⟨_, execTxSysex_busy (by omega) (by omega) hs⟩
  case inr.inr.inr.inl =>
    cases hs : s.txState with
    | idle => exact ⟨_, execTxComplete_idle hs⟩
    | fixedInflight => exact ⟨_, execTxComplete_fixed hs⟩
    | sxWaitLast => exact ⟨_, execTxComplete_last hs⟩
    | sxWaitMid =>
      obtain ⟨_, _, _, h, -⟩ := fill_spec { s with held := s.held.tail }
      exact ⟨_, (execTxComplete_mid hs).trans h⟩
  case inr.inr.inr.inr.inl => exact ⟨_, exec_read idx s⟩
  case inr.inr.inr.inr.inr.inl => exact ⟨_, exec_reset s⟩
  case inr.inr.inr.inr.inr.inr => exact ⟨_, e⟩

/-- Settles O4: every command does, and so does a step with none pending. -/
theorem everyStepAnswersANextState : Obligations.EveryStepAnswersANextState := by
  intro s
  cases hq : s.queue with
  | nil => exact ⟨_, step_idle hq⟩
  | cons i rest =>
    rw [step_pending hq]
    exact exec_next ..

/-- Settles O5: `accept` and `idle` are those states. -/
theorem stepRunsTheDecodedInstruction : Obligations.StepRunsTheDecodedInstruction :=
  fun _ => ⟨fun _ _ hq => step_pending hq, fun hq => step_idle hq⟩

/-- With no host write, taking an input placed in front of the queue gives back the state it was placed in. -/
theorem step_withFetchWord (s : State) (nbits w : Nat) :
    step (s.withFetchWord nbits w) =
      exec (decode (if nbits ≤ 32 then .frame (BitVec.ofNat 32 w) else .word (BitVec.ofNat 64 w))) s := rfl

/-- Settles O6: a table word of 64 bits is that command word, one of 32 bits that packet. -/
theorem aFetchedWordIsRunNext : Obligations.AFetchedWordIsRunNext := by
  intro s w i
  refine ⟨fun _ hw => ?word, fun _ hw => ?packet⟩
  case word =>
    rw [decodeTableWord_64, Option.some.injEq] at hw
    rw [step_withFetchWord, ← hw]
    rfl
  case packet =>
    rw [decodeTableWord_32, Option.some.injEq] at hw
    rw [step_withFetchWord, ← hw]
    rfl

/-! ## The invariant -/

/-- Settles O2: every register is 0 or IDLE and every memory empty. -/
theorem resetMeetsTheInvariant : Obligations.ResetMeetsTheInvariant := by
  intro p
  have idle : (State.resetWith p).txState = .idle := rfl
  exact {
    srcMem_wf := Memory.wf_nil
    txBuf_wf := Memory.wf_nil
    txBuf_inside := by simp [State.resetWith]
    fill_le := Nat.zero_le _
    written := by simp [State.resetWith]
    pos_le := Nat.le_refl _
    cable_lt := Nat.succ_pos _
    session := by simp [State.busy_eq_false_of_idle idle]
    mid := by simp [idle]
    last := by simp [idle]
    lastResult := .inl rfl
    rxStart := fun c => by rw [State.rxGet_resetWith]; exact Nat.two_pow_pos _
    rxAbsent := fun c _ => State.rxGet_resetWith p c }

/-- Taking a step's inputs keeps the invariant: the host's writes keep the source memory's form. -/
theorem State.Inv.accept {s : State} (h : s.Inv) (i : StepInput) (rest : List StepInput) : (s.accept i rest).Inv :=
  { h with srcMem_wf := Memory.wf_writeAll h.srcMem_wf _ }

/-- The invariant of a state that differs in its outputs, in what the transport holds and in fx_pkt, of which the
invariant does not speak. -/
theorem State.Inv.frame {s : State} (h : s.Inv) (o : Option Outputs) (l : List Transfer) (p : Packet) :
    State.Inv { s with out := o, held := l, fxPkt := p } := { h with }

/-- The end of a transfer, or the start of a fixed one: no session is active. -/
theorem State.Inv.noSession {s : State} (h : s.Inv) {t : TxState} (ht : t = .idle ∨ t = .fixedInflight) :
    State.Inv { s with txState := t } := by
  refine { h with session := ?_, mid := ?_, last := ?_ }
  all_goals rcases ht with rfl | rfl <;> simp [State.busy]

/-- A receive command keeps the invariant: a reassembler it writes is of a cable the block has, and keeps a start of TS_W
bits. -/
theorem ReceiveAnswer.inv {s t : State} {a : Answer} (hs : s.Inv) (ha : ReceiveAnswer s a) (h : a = .next t) : t.Inv := by
  obtain ⟨v, m, n, es, e, -, -, hv⟩ := ha
  rw [e] at h
  cases h
  rcases hv with rfl | ⟨c, r, hc, rfl, hr⟩
  · exact { hs with }
  have other {c' : Nibble} (hne : c' ≠ c) : (s.rxSet c r).rxGet c' = s.rxGet c' := s.rxGet_rxSet_other r hne
  refine { hs with rxStart := fun c' => ?start, rxAbsent := fun c' hc' => ?absent }
  case start =>
    by_cases hne : c' = c
    · subst hne
      show ((s.rxSet c' r).rxGet c').start.toNat < _
      rw [State.rxGet_rxSet_same]
      rcases hr with hr | hr
      · exact hr
      · exact hr ▸ hs.rxStart c'
    · exact (other hne).symm ▸ hs.rxStart c'
  case absent =>
    have hne : c' ≠ c := by
      rintro rfl
      exact absurd hc (Nat.not_lt.2 hc')
    exact (other hne).trans (hs.rxAbsent c' hc')

/-- A Fill over a bound source with bytes left keeps the invariant (42_transmit.md R227, R228). -/
theorem fill_inv {s t : State} (hs : s.Inv) (hleft : s.txPos.toNat < s.txLen.toNat) (hlen : 2 ≤ s.txLen.toNat)
    (hsrc : s.txSrc.isSome) (h : s.fill = .next t) : t.Inv := by
  obtain ⟨m, p, final, e, hwf, hin, hread, hfull, hstop⟩ := fill_spec s
  obtain ⟨hp, hfinal, -⟩ := hstop hleft
  obtain ⟨hpos, hcap⟩ := s.filled_length
  have hcap0 := Params.cap_pos s.params
  have packed {x : TxState} {r : Result} (hmid : x = .sxWaitMid → final = false) (hlast : x = .sxWaitLast → final = true)
      (hr : r = .ok ∨ r = .transportFailure) (l : List Transfer) (o : Option Outputs) :
      State.Inv { s with
        txBuf := m, txFill := s.filled.length, txPos := p, draws := s.draws + 1
        txState := x, txLastResult := r, held := l, out := o } := by
    refine { hs with
      txBuf_wf := hwf hs.txBuf_wf, txBuf_inside := ?inside, fill_le := hcap, written := ?written, pos_le := ?pos_le
      session := fun _ => ⟨hlen, hpos, hsrc⟩, mid := fun hx => ⟨?left, hfull (hmid hx)⟩, last := fun hx => ?last
      lastResult := hr }
    case inside =>
      intro x hx
      rcases hin x hx with h | h
      · exact hs.txBuf_inside x h
      · exact Nat.lt_of_lt_of_le h (Nat.mul_le_mul_left 4 hcap)
    case written =>
      intro a ha
      show (m.read a).isSome
      rw [hread, if_pos ha, List.getElem?_eq_getElem (by rwa [packetBytes_length])]
      rfl
    case pos_le => exact hp ▸ Nat.min_le_left ..
    case left =>
      have hmore : ¬s.txLen.toNat ≤ s.txPos.toNat + 3 * s.params.cap := of_decide_eq_false (hfinal ▸ hmid hx)
      show p.toNat < s.txLen.toNat
      omega
    case last =>
      have hend : s.txLen.toNat ≤ s.txPos.toNat + 3 * s.params.cap := of_decide_eq_true (hfinal ▸ hlast hx)
      exact BitVec.eq_of_toNat_eq (hp.trans (Nat.min_eq_left hend))
  rw [e] at h
  cases hk : s.pins.sendOk <;> rw [hk] at h <;> cases h
  · exact packed (by simp) (by simp) (.inr rfl) s.held _
  · exact packed (by cases final <;> simp) (by cases final <;> simp) hs.lastResult _ _

/-- An accepted TX_SYSEX opens its session in an invariant state (42_transmit.md R224). -/
theorem State.Inv.openSession {s : State} (hs : s.Inv) (hidle : s.txState = .idle) {c : Nibble}
    (hc : c.toNat < s.params.nCables) (l : Word32) (a : Nat) : (s.openSession c l a).Inv := by
  have hopen : (s.openSession c l a).txState = .idle := hidle
  refine { hs with pos_le := Nat.zero_le _, cable_lt := hc, session := ?_, mid := ?_, last := ?_ }
  · simp [State.busy_eq_false_of_idle hopen]
  all_goals simp [hidle]

/-- The framed stream of N payload bytes has N + 2 bytes (42_transmit.md R225). -/
theorem framedLen_toNat {n : Word32} (h : n.toNat ≤ 2 ^ 32 - 3) : (n + 2).toNat = n.toNat + 2 := by
  rw [BitVec.toNat_add]
  exact Nat.mod_eq_of_lt (by simp; omega)

theorem execTxSysex_inv {c : Nibble} {n : Word32} {s t : State} (hs : s.Inv) (h : exec (.txSysex c n) s = .next t) :
    t.Inv := by
  rw [exec] at h
  by_cases hv : s.params.nCables ≤ c.toNat ∨ 2 ^ 32 - 3 < n.toNat
  · rw [execTxSysex_invalid hv] at h
    cases h
    exact hs.frame ..
  by_cases hidle : s.txState = .idle
  · rw [execTxSysex_fills (by omega) (by omega) hidle] at h
    have hlen : 2 ≤ (n + 2).toNat := by rw [framedLen_toNat (by omega)]; omega
    exact fill_inv (hs.openSession hidle (by omega) _ _) (Nat.lt_of_lt_of_le Nat.two_pos hlen) hlen rfl h
  · rw [execTxSysex_busy (by omega) (by omega) hidle] at h
    cases h
    exact hs.frame ..

theorem execTxComplete_inv {s t : State} (hs : s.Inv) (h : exec .txComplete s = .next t) : t.Inv := by
  rw [exec] at h
  cases hx : s.txState with
  | idle => rw [execTxComplete_idle hx] at h; cases h; exact hs.frame ..
  | fixedInflight => rw [execTxComplete_fixed hx] at h; cases h; exact (hs.noSession (.inl rfl)).frame ..
  | sxWaitLast =>
    rw [execTxComplete_last hx] at h
    cases h
    exact { hs.noSession (.inl rfl) with lastResult := .inl rfl }
  | sxWaitMid =>
    rw [execTxComplete_mid hx] at h
    obtain ⟨hlen, -, hsrc⟩ := hs.session (by simp [State.busy, hx])
    exact fill_inv (hs.frame s.out s.held.tail s.fxPkt) (hs.mid hx).1 hlen hsrc h

/-- RESET gives the block its power-on state, and keeps the source memory (70_reset_and_hazards.md R321). -/
theorem execReset_inv {s t : State} (hs : s.Inv) (h : exec .reset s = .next t) : t.Inv := by
  cases h
  exact { resetMeetsTheInvariant s.params with srcMem_wf := hs.srcMem_wf }

theorem exec_inv {i : Instr} {s t : State} (hs : s.Inv) (h : exec i s = .next t) : t.Inv := by
  rcases exec_cases i s with ⟨-, ha⟩ | ⟨hp, hc, hx⟩ | ⟨c, n, rfl⟩ | rfl | ⟨idx, rfl⟩ | rfl | ⟨-, -, -, e⟩
  case inl => exact ha.inv hs h
  case inr.inl =>
    obtain ⟨c, m, e, -⟩ := exec_fixed hp hc hx
    rw [e] at h
    rcases sendMessage_cases s c m with ⟨-, e⟩ | ⟨_, -, -, ⟨-, e⟩ | ⟨-, -, e⟩ | ⟨-, -, e⟩⟩ <;> rw [e] at h <;> cases h
    · exact hs.frame ..
    · exact hs.frame ..
    · exact (hs.noSession (.inr rfl)).frame ..
    · exact hs.frame ..
  case inr.inr.inl => exact execTxSysex_inv hs h
  case inr.inr.inr.inl => exact execTxComplete_inv hs h
  case inr.inr.inr.inr.inl => cases h; exact hs.frame ..
  case inr.inr.inr.inr.inr.inl => exact execReset_inv hs h
  case inr.inr.inr.inr.inr.inr => rw [e] at h; cases h; exact hs.frame ..

/-- Settles O3: taking the step's inputs keeps the invariant, and so does every command. -/
theorem stepKeepsTheInvariant : Obligations.StepKeepsTheInvariant := by
  intro s t hs h
  cases hq : s.queue with
  | nil =>
    rw [step_idle hq] at h
    cases h
    exact hs.frame none s.held s.fxPkt
  | cons i rest =>
    rw [step_pending hq] at h
    exact exec_inv (hs.accept i rest) h

end Sys2Proof.Machine
end

section
/-! PROOFS. What every command can write and hand out (60_exceptions.md section 1, 20_memory.md sections 3 to 6), by the
cases of `Effect`. -/

namespace Sys2Proof.Machine

/-! ## What a Fill hands out and leaves alone -/

/-- A Fill sends its packets, and answers OK where the transport accepts and TransportFailure where it refuses
(42_transmit.md R228). -/
theorem FillEffect.answers {s t : State} (h : FillEffect s t) :
    (s.pins.sendOk = true ∧ t.out = some ⟨.ok, 0, [], some (packetBytes s.filled)⟩ ∧
      (t.txState = .sxWaitMid ∨ t.txState = .sxWaitLast) ∧ t.txLastResult = s.txLastResult ∧
      t.held = s.held ++ [⟨.txBuf, t.txFill⟩]) ∨
    (s.pins.sendOk = false ∧ t.out = some ⟨.transportFailure, 0, [], some (packetBytes s.filled)⟩ ∧
      t.txState = .idle ∧ t.txLastResult = .transportFailure ∧ t.held = s.held) := by
  cases h with
  | accepted m p final hk => exact .inl ⟨hk, rfl, by cases final <;> simp, rfl, rfl⟩
  | refused m p hk => exact .inr ⟨hk, rfl, rfl, rfl, rfl⟩

theorem FillEffect.frame {s t : State} (h : FillEffect s t) :
    t.rx = s.rx ∧ t.fxPkt = s.fxPkt ∧ t.srcMem = s.srcMem ∧ t.params = s.params ∧ t.queue = s.queue ∧ t.pins = s.pins := by
  cases h <;> exact ⟨rfl, rfl, rfl, rfl, rfl, rfl⟩

/-- The bytes a Fill sends stand in tx_buf, from its start on (20_memory.md R80). -/
theorem FillEffect.sent_eq_txBuf {s t : State} (h : FillEffect s t) :
    some (packetBytes s.filled) = t.txBuf.readBytes 0 (4 * t.txFill) := by
  have stands {m : Memory} (hread : ∀ a, m.read a =
      if a < 4 * s.filled.length then (packetBytes s.filled)[a]? else s.txBuf.read a) :
      m.readBytes 0 (4 * s.filled.length) = some (packetBytes s.filled) := by
    rw [← packetBytes_length]
    refine Memory.readBytes_eq_some fun j hj => ?_
    rw [Nat.zero_add, hread, if_pos (by rwa [packetBytes_length] at hj), List.getElem?_eq_getElem hj]
  cases h with
  | accepted m p final hk hread => exact (stands hread).symm
  | refused m p hk hread => exact (stands hread).symm

/-! ## Outputs -/

/-- Settles O53, by the effect of the command. -/
theorem outputsHaveTheirShape : Obligations.OutputsHaveTheirShape := by
  intro i s t h
  cases exec_effect h with
  | receive v m n es hpath few short => exact ⟨_, rfl, few, short, fun hp => absurd hpath hp, fun _ => rfl⟩
  | turnedAway r hr hbusy hpath => exact ⟨_, rfl, by simp, by simp, fun _ => rfl, fun _ => rfl⟩
  | fixedSent c x hpath => exact ⟨_, rfl, by simp, by simp, fun _ => rfl, fun hp => absurd hpath hp⟩
  | fixedRefused c x hpath => exact ⟨_, rfl, by simp, by simp, fun _ => rfl, fun hp => absurd hpath hp⟩
  | spurious | fixedDone | sessionDone | read | reset => exact ⟨_, rfl, by simp, by simp, fun _ => rfl, fun _ => rfl⟩
  | resumed _ hcmd _ hfill =>
    rcases hfill.answers with ⟨-, hout, -⟩ | ⟨-, hout, -⟩ <;>
      exact ⟨_, hout, by simp, by simp, fun _ => rfl, fun hp => absurd (hcmd ▸ rfl) hp⟩
  | opened _ c n hcmd _ _ _ hfill =>
    rcases hfill.answers with ⟨-, hout, -⟩ | ⟨-, hout, -⟩ <;>
      exact ⟨_, hout, by simp, by simp, fun _ => rfl, fun hp => absurd (hcmd ▸ rfl) hp⟩

/-- Settles O50, by the effect of the command. -/
theorem resultsAreThoseOfTheCommand : Obligations.ResultsAreThoseOfTheCommand := by
  intro i s t o h ho
  cases exec_effect h with
  | receive v m n es hpath =>
    cases ho
    exact ⟨fun _ => rfl, fun _ => .inl rfl, by simp [hpath], fun _ => rfl, fun _ => rfl⟩
  | turnedAway r hr hbusy hpath hcomplete hreset hread =>
    cases ho
    refine ⟨fun hp => absurd hp hpath, fun hi => absurd hi hcomplete, fun hp => .inr ?_, ?_, fun _ => rfl⟩
    · exact hr.resolve_right fun hb => by simp [hbusy hb] at hp
    · simp [hreset, hread]
  | fixedSent c x hpath hcomplete =>
    cases ho
    exact ⟨fun _ => rfl, fun _ => .inl rfl, by simp [hpath], fun _ => rfl, fun _ => rfl⟩
  | fixedRefused c x hpath hcomplete =>
    cases ho
    refine ⟨by simp [hpath], fun hi => absurd hi hcomplete, by simp [hpath], ?_, fun _ => rfl⟩
    rintro (rfl | ⟨idx, rfl⟩) <;> simp [pathOf] at hpath
  | spurious hcmd | fixedDone hcmd | sessionDone hcmd =>
    cases ho
    exact ⟨fun _ => rfl, fun _ => .inl rfl, by simp [hcmd, pathOf], fun _ => rfl, fun _ => rfl⟩
  | resumed _ hcmd hmid hfill =>
    subst hcmd
    rcases hfill.answers with ⟨-, hout, -⟩ | ⟨-, hout, -⟩ <;> rw [hout] at ho <;> cases ho <;> simp [pathOf, hmid]
  | opened _ c n hcmd _ _ _ hfill =>
    subst hcmd
    rcases hfill.answers with ⟨-, hout, -⟩ | ⟨-, hout, -⟩ <;> rw [hout] at ho <;> cases ho <;> simp [pathOf]
  | read idx hcmd =>
    cases ho
    exact ⟨fun _ => rfl, fun _ => .inl rfl, fun _ => .inl (.inr ⟨idx, hcmd⟩), fun _ => rfl, fun hn => absurd hcmd (hn idx)⟩
  | reset hcmd =>
    cases ho
    exact ⟨fun _ => rfl, fun _ => .inl rfl, fun _ => .inl (.inl hcmd), fun _ => rfl, fun _ => rfl⟩

/-- Settles O51: a fixed message or a Fill is refused; no other command sends, and an accepted send answers OK. -/
theorem transportFailureMeansARefusedSend : Obligations.TransportFailureMeansARefusedSend := by
  intro i s t o h ho
  cases exec_effect h with
  | fixedSent c x _ _ _ _ _ _ hk => cases ho; simp [hk]
  | fixedRefused c x hpath hcomplete hsysex hidle _ _ hk =>
    cases ho
    refine ⟨by simp [hk], fun _ => ⟨hpath, hidle, by rwa [if_neg hcomplete], ?sysex, fun _ _ => ⟨rfl, rfl⟩⟩⟩
    case sysex =>
      rintro (hi | ⟨c, n, hi⟩)
      · exact absurd hi hcomplete
      · exact absurd hi (hsysex c n)
  | resumed _ hcmd hmid hfill =>
    subst hcmd
    rcases hfill.answers with ⟨hk, hout, -⟩ | ⟨hk, hout, hidle, hlast, -⟩ <;> rw [hout] at ho <;> cases ho
    · exact ⟨by simpa using hk, by simp⟩
    · exact ⟨by simpa using hk, fun _ => ⟨rfl, hidle, hmid, fun _ => ⟨hlast, hfill.sent_eq_txBuf⟩, by simp⟩⟩
  | opened _ c n hcmd _ _ hopen hfill =>
    subst hcmd
    rcases hfill.answers with ⟨hk, hout, -⟩ | ⟨hk, hout, hidle, hlast, -⟩ <;> rw [hout] at ho <;> cases ho
    · exact ⟨by simpa using hk, by simp⟩
    · exact ⟨by simpa using hk, fun _ => ⟨rfl, hidle, hopen, fun _ => ⟨hlast, hfill.sent_eq_txBuf⟩, by simp⟩⟩
  | turnedAway r hr => cases ho; rcases hr with rfl | rfl <;> simp
  | _ => cases ho; simp

/-- Settles O52: only a command turned away returns these results. -/
theorem refusedCommandsWriteNothing : Obligations.RefusedCommandsWriteNothing := by
  intro i s t o h ho hr
  cases exec_effect h with
  | turnedAway r =>
    cases ho
    exact ⟨rfl, rfl, rfl⟩
  | resumed _ _ _ hfill =>
    rcases hfill.answers with ⟨-, hout, -⟩ | ⟨-, hout, -⟩ <;> rw [hout] at ho <;> cases ho <;> simp at hr
  | opened _ _ _ _ _ _ _ hfill =>
    rcases hfill.answers with ⟨-, hout, -⟩ | ⟨-, hout, -⟩ <;> rw [hout] at ho <;> cases ho <;> simp at hr
  | _ => cases ho; simp at hr

/-- Settles O54, by the effect of the command. -/
theorem sourceMemoryAndInputsAreNotWritten : Obligations.SourceMemoryAndInputsAreNotWritten := by
  intro i s t h
  cases exec_effect h with
  | resumed _ _ _ hfill => exact hfill.frame.2.2
  | opened _ _ _ _ _ _ _ hfill => exact hfill.frame.2.2
  | _ => exact ⟨rfl, rfl, rfl, rfl⟩

/-! ## What is written when -/

/-- Settles O46: in flight, only TX_COMPLETE reaches a Fill or leaves the state, and no fixed message is sent. -/
theorem bytesInFlightAreNotWritten : Obligations.BytesInFlightAreNotWritten := by
  intro i s t h hreset
  cases exec_effect h with
  | fixedSent _ _ _ _ _ hidle | fixedRefused _ _ _ _ _ hidle => simp [hidle]
  | opened _ _ _ _ _ _ hidle => simp [hidle]
  | resumed _ hcmd hmid => simp [hcmd, hmid]
  | receive | turnedAway | read => exact ⟨fun _ => rfl, fun _ => rfl, fun _ _ => rfl, fun _ _ => rfl⟩
  | spurious hcmd | fixedDone hcmd | sessionDone hcmd =>
    exact ⟨fun _ => rfl, fun _ => rfl, fun _ hi => absurd hcmd hi, fun _ hi => absurd hcmd hi⟩
  | reset hcmd => exact absurd hcmd hreset

/-- Settles O55: a Fill that is refused and the end of a session write it. -/
theorem lastResultIsWrittenAtASessionsEnd : Obligations.LastResultIsWrittenAtASessionsEnd := by
  intro i s t h hreset
  cases exec_effect h with
  | sessionDone hcmd hlast => exact .inr (.inl ⟨hcmd, hlast, rfl, rfl⟩)
  | resumed _ hcmd hmid hfill =>
    rcases hfill.answers with ⟨-, -, -, hresult, -⟩ | ⟨-, hout, hidle, hresult, -⟩
    · exact .inl hresult
    · exact .inr (.inr ⟨.inl ⟨hcmd, hmid⟩, hidle, hresult, _, hout⟩)
  | opened _ c n hcmd _ _ _ hfill =>
    rcases hfill.answers with ⟨-, -, -, hresult, -⟩ | ⟨-, hout, hidle, hresult, -⟩
    · exact .inl hresult
    · exact .inr (.inr ⟨.inr ⟨c, n, hcmd⟩, hidle, hresult, _, hout⟩)
  | reset hcmd => exact absurd hcmd hreset
  | _ => exact .inl rfl

/-! ## The transport's side -/

/-- What the transport holds is at most one transfer where it agrees with tx_state. -/
theorem State.TransportAgrees.held_length {s : State} (h : s.TransportAgrees) : s.held.length ≤ 1 := by
  rw [h]
  cases s.txState <;> simp

/-- A Fill that starts with nothing held leaves the transport in agreement. -/
theorem FillEffect.transportAgrees {s t : State} (h : FillEffect s t) (hnone : s.held = []) : t.TransportAgrees := by
  unfold State.TransportAgrees
  rcases h.answers with ⟨-, -, hmid | hlast, -, hheld⟩ | ⟨-, -, hidle, -, hheld⟩
  · simp [hmid, hheld, hnone]
  · simp [hlast, hheld, hnone]
  · simp [hidle, hheld, hnone]

/-- A command keeps the agreement where a RESET comes only with nothing held (70_reset_and_hazards.md R326). -/
theorem exec_transportAgrees {i : Instr} {s t : State} (ha : s.TransportAgrees) (hreset : i = .reset → s.held = [])
    (h : exec i s = .next t) : t.TransportAgrees := by
  have hheld := ha
  unfold State.TransportAgrees at hheld
  cases exec_effect h with
  | receive | turnedAway | fixedRefused | read => exact ha
  | fixedSent _ _ _ _ _ hidle =>
    rw [hidle] at hheld
    simp [State.TransportAgrees, hheld]
  | spurious _ hs | fixedDone _ hs | sessionDone _ hs =>
    rw [hs] at hheld
    simp [State.TransportAgrees, hheld, hs]
  | resumed _ _ hmid hfill =>
    rw [hmid] at hheld
    exact hfill.transportAgrees (by simp [hheld])
  | opened _ _ _ _ _ _ hidle hfill =>
    rw [hidle] at hheld
    exact hfill.transportAgrees hheld
  | reset hcmd => exact hreset hcmd

/-- Settles O56: the command of a pending input keeps the agreement, which leaves at most one transfer held. -/
theorem dutifulStepsKeepTheTransportInAgreement : Obligations.DutifulStepsKeepTheTransportInAgreement := by
  intro s t ha hduty h
  suffices ht : t.TransportAgrees from ⟨ht, ht.held_length⟩
  cases hq : s.queue with
  | nil =>
    rw [step_idle hq] at h
    cases h
    exact ha
  | cons i rest =>
    rw [step_pending hq] at h
    obtain ⟨-, hreset⟩ := hduty i (by simp [hq])
    exact exec_transportAgrees (s := s.accept i rest) ha hreset h

end Sys2Proof.Machine
end

section
/-! PROOFS. The receive path over packets and over runs (41_receive.md section 3). -/

namespace Sys2Proof.Machine

/-! ## RX_FRAME and its packet row -/

theorem exec_decodePacket_reserved {p : Word32} (s : State) (h : pktCin p = 0x0 ∨ pktCin p = 0x1) :
    exec (decodePacket p) s = rxReserved s := by
  rcases h with h | h <;> rw [decodePacket, h] <;> rfl

/-- A CIN is reserved or counts bytes (30_encoding.md R105). -/
theorem cin_cases (n : Nibble) : (n = 0x0 ∨ n = 0x1) ∨ 2 ≤ n.toNat := by
  revert n; decide

/-- Settles O19: both drop a reserved packet, and hand any other to its cable by its kind. -/
theorem rxFrameRunsItsPacketRow : Obligations.RxFrameRunsItsPacketRow := by
  intro p s
  rcases cin_cases (pktCin p) with h | h
  · rw [exec_rxFrame_reserved s h, exec_decodePacket_reserved s h]
  · rw [exec_rxFrame_onCable s h, exec_decodePacket_onCable s h]

/-! ## Cables -/

theorem rxSet_comm (s : State) {c c' : Nibble} (r r' : RxSession) (h : c' ≠ c) :
    (s.rxSet c r).rxSet c' r' = (s.rxSet c' r').rxSet c r := by
  have hne : c.toNat ≠ c'.toNat := fun e => h (BitVec.eq_of_toNat_eq e.symm)
  simp only [State.rxSet, Vector.set_comm _ _ hne]

/-- An answer that writes the reassembler of `c` leaves any other alone, whatever it holds. -/
theorem emit_rxSet_other {c c' : Nibble} (h : c' ≠ c) {s t : State} {x : RxSession} {es : List Event}
    (e : (s.rxSet c x).emit es = .next t) :
    t.rxGet c' = s.rxGet c' ∧ ∀ r, ((s.rxSet c' r).rxSet c x).emit es = .next (t.rxSet c' r) := by
  cases e
  refine ⟨s.rxGet_rxSet_other x h, fun r => ?_⟩
  rw [rxSet_comm s r x h.symm]
  rfl

/-- What a packet's cable does with it neither writes nor reads the reassembler of another cable (41_receive.md R212). -/
theorem rxByKind_other {c c' : Nibble} (h : c' ≠ c) (k : Kind) (d : List Byte) {s t : State}
    (e : rxByKind k c d s = .next t) :
    t.rxGet c' = s.rxGet c' ∧ ∀ r, rxByKind k c d (s.rxSet c' r) = .next (t.rxSet c' r) := by
  have same (r : RxSession) : (s.rxSet c' r).rxGet c = s.rxGet c := s.rxGet_rxSet_other r h.symm
  cases k with
  | reserved => cases e; exact ⟨rfl, fun _ => rfl⟩
  | msg => cases e; exact ⟨rfl, fun _ => rfl⟩
  | sxStart => exact emit_rxSet_other h e
  | sxComplete => exact emit_rxSet_other h e
  | sxCont =>
    simp only [rxByKind, rxSxCont, same] at e ⊢
    cases hs : (s.rxGet c).state <;> simp only [hs] at e ⊢
    · cases e; exact ⟨rfl, fun _ => rfl⟩
    · exact emit_rxSet_other h e
  | sxEnd =>
    simp only [rxByKind, rxSxEnd, same] at e ⊢
    cases hs : (s.rxGet c).state <;> simp only [hs] at e ⊢
    · cases e; exact ⟨rfl, fun _ => rfl⟩
    · exact emit_rxSet_other h e

/-- Settles O30: a packet is dropped without a look at a reassembler, or handed to its own. -/
theorem cablesAreIndependent : Obligations.CablesAreIndependent := by
  intro p s t e
  suffices hc : ∀ c : Nibble, c ≠ pktCable p →
      t.rxGet c = s.rxGet c ∧ ∀ r, exec (.rxFrame p) (s.rxSet c r) = .next (t.rxSet c r) from
    ⟨fun c h => (hc c h).1, fun c r h => (hc c h).2 r⟩
  intro c h
  rcases cin_cases (pktCin p) with hcin | hcin
  · simp only [exec_rxFrame_reserved _ hcin] at e ⊢
    cases e
    exact ⟨rfl, fun _ => rfl⟩
  simp only [exec_rxFrame_onCable _ hcin] at e ⊢
  rcases Nat.lt_or_ge (pktCable p).toNat s.params.nCables with hlt | hge
  · rw [onCable_of_lt _ hlt] at e
    obtain ⟨hget, hset⟩ := rxByKind_other h _ _ e
    exact ⟨hget, fun r => (onCable_of_lt (s := s.rxSet c r) _ hlt).trans (hset r)⟩
  · rw [onCable_of_ge _ hge] at e
    cases e
    exact ⟨rfl, fun r => onCable_of_ge (s := s.rxSet c r) _ hge⟩

end Sys2Proof.Machine
end

section
/-! PROOFS. The receive and the transmit path are disjoint (20_memory.md R89). -/

namespace Sys2Proof.Machine

/-- The state with the transmit registers of `u` (10_state.md R32 to R42). -/
def State.withTxOf (s u : State) : State :=
  { s with
    txState := u.txState, txCable := u.txCable, txLen := u.txLen, txPos := u.txPos, txFill := u.txFill, txBuf := u.txBuf
    txLastResult := u.txLastResult, fxPkt := u.fxPkt, txSrc := u.txSrc }

/-- The state with the receive registers of `u` (10_state.md R43 to R47). -/
def State.withRxOf (s u : State) : State :=
  { s with rx := u.rx, rxReservedCount := u.rxReservedCount, rxDiscardCount := u.rxDiscardCount }

/-! ## Receive commands -/

/-- A receive command drops its packet as reserved, or hands it to its cable by its kind. -/
theorem exec_receive_form {i : Instr} (h : pathOf i = .receive) :
    (∀ s, exec i s = rxReserved s) ∨ ∃ c k d, ∀ s, exec i s = s.onCable c (rxByKind k c d) := by
  cases i <;> simp only [pathOf, reduceCtorEq] at h
  case rxFrame p =>
    rcases cin_cases (pktCin p) with hcin | hcin
    · exact .inl fun s => exec_rxFrame_reserved s hcin
    · exact .inr ⟨_, _, _, fun s => exec_rxFrame_onCable s hcin⟩
  case pktReserved0 | pktReserved1 => exact .inl fun _ => rfl
  case pktSxStart c b2 b3 => exact .inr ⟨c, .sxStart, [0xF0, b2, b3], fun _ => rfl⟩
  case pktSxCont c b1 b2 b3 => exact .inr ⟨c, .sxCont, [b1, b2, b3], fun _ => rfl⟩
  case pktSxEnd1 c => exact .inr ⟨c, .sxEnd, [0xF7], fun _ => rfl⟩
  case pktSxEnd2 c b1 b2 => exact .inr ⟨c, .sxEnd, [b1, b2], fun _ => rfl⟩
  case pktSxEnd3 c b1 b2 b3 => exact .inr ⟨c, .sxEnd, [b1, b2, b3], fun _ => rfl⟩
  case pktSxComplete2 c b2 => exact .inr ⟨c, .sxComplete, [0xF0, b2], fun _ => rfl⟩
  case pktSxComplete3 c b2 b3 => exact .inr ⟨c, .sxComplete, [0xF0, b2, b3], fun _ => rfl⟩
  all_goals exact .inr ⟨_, .msg, _, fun _ => rfl⟩

theorem rxSxCont_withTxOf {c : Nibble} {d : List Byte} {s t : State} (u : State) (h : rxSxCont c d s = .next t) :
    rxSxCont c d (s.withTxOf u) = .next (t.withTxOf u) := by
  cases hs : (s.rxGet c).state with
  | idle =>
    rw [rxSxCont_idle d hs] at h
    cases h
    exact rxSxCont_idle (s := s.withTxOf u) d hs
  | receiving =>
    rw [rxSxCont_receiving d hs] at h
    cases h
    exact rxSxCont_receiving (s := s.withTxOf u) d hs

theorem rxSxEnd_withTxOf {c : Nibble} {d : List Byte} {s t : State} (u : State) (h : rxSxEnd c d s = .next t) :
    rxSxEnd c d (s.withTxOf u) = .next (t.withTxOf u) := by
  cases hs : (s.rxGet c).state with
  | idle =>
    rw [rxSxEnd_idle d hs] at h
    cases h
    exact rxSxEnd_idle (s := s.withTxOf u) d hs
  | receiving =>
    rw [rxSxEnd_receiving d hs] at h
    cases h
    exact rxSxEnd_receiving (s := s.withTxOf u) d hs

theorem rxByKind_withTxOf {k : Kind} {c : Nibble} {d : List Byte} {s t : State} (u : State)
    (h : rxByKind k c d s = .next t) : rxByKind k c d (s.withTxOf u) = .next (t.withTxOf u) := by
  cases k with
  | reserved | msg | sxStart | sxComplete => cases h; rfl
  | sxCont => exact rxSxCont_withTxOf u h
  | sxEnd => exact rxSxEnd_withTxOf u h

theorem exec_receive_withTxOf {i : Instr} (hi : pathOf i = .receive) {s t : State} (u : State)
    (h : exec i s = .next t) : exec i (s.withTxOf u) = .next (t.withTxOf u) := by
  rcases exec_receive_form hi with e | ⟨c, k, d, e⟩ <;> rw [e] at h ⊢
  · cases h; rfl
  rcases Nat.lt_or_ge c.toNat s.params.nCables with hc | hc
  · rw [onCable_of_lt _ hc] at h
    exact (onCable_of_lt (s := s.withTxOf u) _ hc).trans (rxByKind_withTxOf u h)
  · rw [onCable_of_ge _ hc] at h
    cases h
    exact onCable_of_ge (s := s.withTxOf u) _ hc

/-! ## Transmit commands -/

theorem sendMessage_withRxOf {c : Nibble} {m : Option FixedMessage} {s t : State} (u : State)
    (h : s.sendMessage c m = .next t) : (s.withRxOf u).sendMessage c m = .next (t.withRxOf u) := by
  rcases sendMessage_cases s c m with ⟨hv, e⟩ | ⟨x, rfl, hc, ⟨hs, e⟩ | ⟨hs, hk, e⟩ | ⟨hs, hk, e⟩⟩ <;> rw [e] at h <;> cases h
  · exact sendMessage_invalid (s := s.withRxOf u) hv
  · exact sendMessage_busy (s := s.withRxOf u) x hc hs
  · exact sendMessage_sent (s := s.withRxOf u) x hc hs hk
  · exact sendMessage_notSent (s := s.withRxOf u) x hc hs hk

theorem fillLoop_withRxOf (n : Nat) (s u : State) :
    fillLoop n (s.withRxOf u) = ((fillLoop n s).1.withRxOf u, (fillLoop n s).2) := by
  induction n generalizing s with
  | zero => rfl
  | succ n ih =>
    have hpack : (s.withRxOf u).packGroup = s.packGroup.withRxOf u := rfl
    have hfinal : (s.withRxOf u).groupFinal = s.groupFinal := rfl
    simp only [fillLoop, hpack, hfinal, ih]
    split <;> rfl

theorem flush_withRxOf {final : Bool} {s t : State} (u : State) (h : s.flush final = .next t) :
    (s.withRxOf u).flush final = .next (t.withRxOf u) := by
  have hbuf : (s.withRxOf u).txBuf = s.txBuf := rfl
  have hfill : (s.withRxOf u).txFill = s.txFill := rfl
  have hpins : (s.withRxOf u).pins = s.pins := rfl
  simp only [State.flush, hbuf, hfill, hpins] at h ⊢
  cases hb : s.txBuf.readBytes 0 (4 * s.txFill) with
  | none => rw [hb] at h; cases h
  | some bytes => cases hk : s.pins.sendOk <;> simp only [hb, hk] at h ⊢ <;> cases h <;> rfl

theorem fill_withRxOf {s t : State} (u : State) (h : s.fill = .next t) :
    (s.withRxOf u).fill = .next (t.withRxOf u) := by
  have hloop : fillLoop s.params.cap (s.withRxOf u).startFill = _ := fillLoop_withRxOf s.params.cap s.startFill u
  have hcap : (s.withRxOf u).params = s.params := rfl
  simp only [State.fill, hcap, hloop]
  exact flush_withRxOf u h

theorem txSysex_withRxOf {c : Nibble} {n : Word32} {s t : State} (u : State) (h : execTxSysex c n s = .next t) :
    execTxSysex c n (s.withRxOf u) = .next (t.withRxOf u) := by
  by_cases hv : s.params.nCables ≤ c.toNat ∨ 2 ^ 32 - 3 < n.toNat
  · rw [execTxSysex_invalid hv] at h
    cases h
    exact execTxSysex_invalid (s := s.withRxOf u) hv
  obtain ⟨hc, hn⟩ : c.toNat < s.params.nCables ∧ n.toNat ≤ 2 ^ 32 - 3 := by omega
  by_cases hs : s.txState = .idle
  · rw [execTxSysex_fills hc hn hs] at h
    exact (execTxSysex_fills (s := s.withRxOf u) hc hn hs).trans (fill_withRxOf u h)
  · rw [execTxSysex_busy hc hn hs] at h
    cases h
    exact execTxSysex_busy (s := s.withRxOf u) hc hn hs

theorem txComplete_withRxOf {s t : State} (u : State) (h : execTxComplete s = .next t) :
    execTxComplete (s.withRxOf u) = .next (t.withRxOf u) := by
  cases hs : s.txState with
  | idle => rw [execTxComplete_idle hs] at h; cases h; exact execTxComplete_idle (s := s.withRxOf u) hs
  | fixedInflight => rw [execTxComplete_fixed hs] at h; cases h; exact execTxComplete_fixed (s := s.withRxOf u) hs
  | sxWaitLast => rw [execTxComplete_last hs] at h; cases h; exact execTxComplete_last (s := s.withRxOf u) hs
  | sxWaitMid =>
    rw [execTxComplete_mid hs] at h
    exact (execTxComplete_mid (s := s.withRxOf u) hs).trans (fill_withRxOf u h)

theorem exec_transmit_withRxOf {i : Instr} (hi : pathOf i = .transmit) {s t : State} (u : State)
    (h : exec i s = .next t) : exec i (s.withRxOf u) = .next (t.withRxOf u) := by
  by_cases hc : i = .txComplete
  · subst hc
    exact txComplete_withRxOf u h
  by_cases hx : ∃ c n, i = .txSysex c n
  · obtain ⟨c, n, rfl⟩ := hx
    exact txSysex_withRxOf u h
  obtain ⟨c, m, e, -⟩ := exec_fixed hi hc fun c n hn => hx ⟨c, n, hn⟩
  rw [e] at h ⊢
  exact sendMessage_withRxOf u h

/-- Settles O47: the two forms of a receive command, and the three transmit commands, each do the same over the other
path's registers. -/
theorem receiveAndTransmitAreDisjoint : Obligations.ReceiveAndTransmitAreDisjoint := by
  intro i s t h
  refine ⟨fun hi a b l p n m q x z => ?receive, fun hi v a b => ?transmit⟩
  case receive =>
    exact exec_receive_withTxOf hi
      { s with
        txState := a, txCable := b, txLen := l, txPos := p, txFill := n, txBuf := m, txLastResult := q, fxPkt := x
        txSrc := z } h
  case transmit =>
    exact exec_transmit_withRxOf hi { s with rx := v, rxReservedCount := a, rxDiscardCount := b } h

end Sys2Proof.Machine
end

section
/-! PROOFS. Received sysex sessions over runs (41_receive.md section 3). -/
namespace Sys2Proof.Machine

/-! ## Which inputs are packets -/

theorem pathOf_decodeFixed (c : Nibble) (len : BitVec 2) (b0 b1 b2 : Byte) :
    pathOf (decodeFixed c len b0 b1 b2) = .transmit := by
  unfold decodeFixed
  repeat' split
  all_goals rfl

/-- The only command word of the receive path is RX_FRAME (30_encoding.md R121). -/
theorem decodeWord_receive {w : Word64} (h : pathOf (decodeWord w) = .receive) :
    decodeWord w = .rxFrame (fieldArg w) := by
  by_cases h2 : fieldOp w = 0x2
  · rw [decodeWord_txFixed h2, pathOf_decodeFixed] at h
    cases h
  rw [decodeWord] at h ⊢
  rcases nibble_cases (fieldOp w) with e | e | e | e | e | e | e | e | e | e | e | e | e | e | e | e <;> rw [e] at h ⊢
  case inr.inl => rfl
  case inr.inr.inl => exact absurd e h2
  all_goals cases h

theorem decodePacket_ne_rxFrame (p q : Word32) : decodePacket p ≠ .rxFrame q := by
  unfold decodePacket
  dsimp only
  repeat' split
  all_goals simp

theorem rxPacket?_frame (p : Word32) : rxPacket? (.frame p) = some p := by
  unfold rxPacket?
  split
  case h_1 q e => exact absurd e (decodePacket_ne_rxFrame p q)
  case h_2 heq _ => cases heq; rfl
  case h_3 hno => exact absurd rfl (hno p)

theorem rxPacket?_word_of_not_receive {w : Word64} (h : pathOf (decodeWord w) ≠ .receive) :
    rxPacket? (.word w) = none := by
  unfold rxPacket?
  split
  case h_1 q e => exact absurd (congrArg pathOf e) h
  case h_2 heq _ => cases heq
  case h_3 => rfl

/-- An input is no receive command, or does what RX_FRAME of its packet does. -/
theorem rxPacket?_cases (x : CmdInput) :
    (rxPacket? x = none ∧ pathOf (decode x) ≠ .receive) ∨
    ∃ p, rxPacket? x = some p ∧ ∀ s, exec (decode x) s = exec (.rxFrame p) s := by
  cases x with
  | frame p => exact .inr ⟨p, rxPacket?_frame p, fun s => (rxFrameRunsItsPacketRow p s).symm⟩
  | word w =>
    by_cases h : pathOf (decodeWord w) = .receive
    · refine .inr ⟨fieldArg w, ?_, fun s => by rw [decode, decodeWord_receive h]⟩
      simp only [rxPacket?, decode, decodeWord_receive h]
    · exact .inl ⟨rxPacket?_word_of_not_receive h, h⟩

/-! ## One input, as a cable's reassembler sees it -/

/-- The input is no sysex packet of the cable, or it is one, and its cable does with it what its kind says. -/
theorem sysexPacket?_cases (c : Nibble) (x : CmdInput) :
    (sysexPacket? c x = none ∧ (pathOf (decode x) ≠ .receive ∨
      ∃ p, (isSysex p = false ∨ pktCable p ≠ c) ∧ ∀ s, exec (decode x) s = exec (.rxFrame p) s)) ∨
    ∃ p, sysexPacket? c x = some p ∧ isSysex p = true ∧ pktCable p = c ∧
      ∀ s, exec (decode x) s = exec (.rxFrame p) s := by
  rcases rxPacket?_cases x with ⟨hnone, hpath⟩ | ⟨p, hsome, hexec⟩
  · exact .inl ⟨by simp [sysexPacket?, hnone], .inl hpath⟩
  by_cases hp : isSysex p = true ∧ pktCable p = c
  · exact .inr ⟨p, by simp [sysexPacket?, hsome, hp], hp.1, hp.2, hexec⟩
  · refine .inl ⟨by simpa [sysexPacket?, hsome] using hp, .inr ⟨p, ?_, hexec⟩⟩
    by_cases hs : isSysex p = true
    · exact .inr fun hc => hp ⟨hs, hc⟩
    · exact .inl (by simpa using hs)

/-- A packet that is no sysex packet is of a kind no reassembler takes. -/
theorem kindOf_of_not_isSysex {p : Word32} (h : isSysex p = false) : kindOf p = .reserved ∨ kindOf p = .msg := by
  unfold isSysex at h
  cases hk : kindOf p <;> simp [hk] at h ⊢

/-- The kinds no reassembler takes write none and emit no event of one (41_receive.md R181, R183). -/
theorem rxByKind_not_sysex {k : Kind} {c : Nibble} {d : List Byte} {s t : State} (hk : k = .reserved ∨ k = .msg)
    (e : rxByKind k c d s = .next t) (c' : Nibble) :
    ∃ o, t.out = some o ∧ o.events.filter (Event.isSysexOf c') = [] ∧ t.rx = s.rx := by
  rcases hk with rfl | rfl <;> cases e <;> exact ⟨_, rfl, rfl, rfl⟩

/-- Every event of a packet is of the packet's cable. -/
theorem rxByKind_events_other {k : Kind} {c c' : Nibble} {d : List Byte} {s t : State} (hc : c ≠ c')
    (e : rxByKind k c d s = .next t) : ∃ o, t.out = some o ∧ o.events.filter (Event.isSysexOf c') = [] := by
  have hno : (c == c') = false := by simpa using hc
  cases k with
  | reserved | msg => cases e; exact ⟨_, rfl, rfl⟩
  | sxStart => cases e; exact ⟨_, rfl, by simp [Event.isSysexOf, hno]⟩
  | sxComplete => cases e; exact ⟨_, rfl, by split <;> simp [Event.isSysexOf, hno]⟩
  | sxCont =>
    cases hs : (s.rxGet c).state with
    | idle => rw [show rxByKind .sxCont c d s = _ from rxSxCont_idle d hs] at e; cases e; exact ⟨_, rfl, rfl⟩
    | receiving =>
      rw [show rxByKind .sxCont c d s = _ from rxSxCont_receiving d hs] at e
      cases e
      exact ⟨_, rfl, by simp [Event.isSysexOf, hno]⟩
  | sxEnd =>
    cases hs : (s.rxGet c).state with
    | idle => rw [show rxByKind .sxEnd c d s = _ from rxSxEnd_idle d hs] at e; cases e; exact ⟨_, rfl, rfl⟩
    | receiving =>
      rw [show rxByKind .sxEnd c d s = _ from rxSxEnd_receiving d hs] at e
      cases e
      exact ⟨_, rfl, by split <;> simp [Event.isSysexOf, hno]⟩

/-- A packet that is no sysex packet of a cable does nothing there. -/
theorem exec_rxFrame_elsewhere {p : Word32} {c : Nibble} {s t : State} (hp : isSysex p = false ∨ pktCable p ≠ c)
    (e : exec (.rxFrame p) s = .next t) :
    ∃ o, t.out = some o ∧ o.events.filter (Event.isSysexOf c) = [] ∧ t.rxGet c = s.rxGet c := by
  rcases cin_cases (pktCin p) with hcin | hcin
  · rw [exec_rxFrame_reserved s hcin] at e
    cases e
    exact ⟨_, rfl, rfl, rfl⟩
  rw [exec_rxFrame_onCable s hcin] at e
  rcases Nat.lt_or_ge (pktCable p).toNat s.params.nCables with hlt | hge
  · rw [onCable_of_lt _ hlt] at e
    rcases hp with hs | hc
    · obtain ⟨o, hout, hev, hrx⟩ := rxByKind_not_sysex (kindOf_of_not_isSysex hs) e c
      exact ⟨o, hout, hev, State.rxGet_congr hrx c⟩
    · obtain ⟨o, hout, hev⟩ := rxByKind_events_other hc e
      exact ⟨o, hout, hev, (rxByKind_other (Ne.symm hc) _ _ e).1⟩
  · rw [onCable_of_ge _ hge] at e
    cases e
    exact ⟨_, rfl, rfl, rfl⟩

/-- A command of another path, but for RESET, does nothing to a reassembler. -/
theorem exec_not_receive {i : Instr} {s t : State} (hi : pathOf i ≠ .receive) (hreset : i ≠ .reset)
    (h : exec i s = .next t) : t.rx = s.rx := by
  cases exec_effect h with
  | receive _ _ _ _ hpath => exact absurd hpath hi
  | resumed _ _ _ hfill => exact hfill.frame.1
  | opened _ _ _ _ _ _ _ hfill => exact hfill.frame.1
  | reset hcmd => exact absurd hcmd hreset
  | _ => rfl

/-! ## One step of a run -/

/-- The sysex events of a cable over the first `n` steps of a run. -/
def sysexTrace (c : Nibble) (n : Nat) (s : State) : List Event := (eventsOf (trace n s)).filter (Event.isSysexOf c)

theorem sysexTrace_succ {c : Nibble} {n : Nat} {s t : State} {o : Outputs} (h : step s = .next t) (ho : t.out = some o) :
    sysexTrace c (n + 1) s = o.events.filter (Event.isSysexOf c) ++ sysexTrace c n t := by
  simp [sysexTrace, trace_succ n h, ho, eventsOf]

/-- What a step leaves for the rest of a run: the inputs after the one it took, and the parameters. -/
def Continues (s t : State) (rest : List StepInput) : Prop := t.queue = rest ∧ t.params = s.params

theorem step_continues {s t : State} {i : StepInput} {rest : List StepInput} (hq : s.queue = i :: rest)
    (h : step s = .next t) : Continues s t rest := by
  rw [step_pending hq] at h
  obtain ⟨-, hparams, hqueue, -⟩ := sourceMemoryAndInputsAreNotWritten _ _ _ h
  exact ⟨hqueue, hparams⟩

/-- An input that is no sysex packet of the cable does nothing there. -/
theorem step_elsewhere {c : Nibble} {s : State} {i : StepInput} {rest : List StepInput} (hq : s.queue = i :: rest)
    (hreset : decode i.cmd ≠ .reset) (hi : sysexPacket? c i.cmd = none) (n : Nat) :
    ∃ t, step s = .next t ∧ Continues s t rest ∧ t.rxGet c = s.rxGet c ∧
      sysexTrace c (n + 1) s = sysexTrace c n t := by
  obtain ⟨t, h⟩ := everyStepAnswersANextState s
  have hexec := h
  rw [step_pending hq] at hexec
  suffices ho : ∃ o, t.out = some o ∧ o.events.filter (Event.isSysexOf c) = [] ∧ t.rxGet c = s.rxGet c by
    obtain ⟨o, hout, hev, hget⟩ := ho
    exact ⟨t, h, step_continues hq h, hget, by rw [sysexTrace_succ h hout, hev, List.nil_append]⟩
  rcases sysexPacket?_cases c i.cmd with ⟨-, hpath | ⟨p, hp, he⟩⟩ | ⟨p, hsome, -⟩
  · obtain ⟨o, hout, -, -, hev, -⟩ := outputsHaveTheirShape _ _ _ hexec
    exact ⟨o, hout, by rw [hev hpath]; rfl, State.rxGet_congr (exec_not_receive hpath hreset hexec) c⟩
  · rw [he] at hexec
    exact exec_rxFrame_elsewhere (s := s.accept i rest) hp hexec
  · rw [hi] at hsome; cases hsome

/-- A sysex packet of the cable is handed to it. -/
theorem step_sysexPacket {c : Nibble} {s : State} {i : StepInput} {rest : List StepInput} {p : Word32}
    (hq : s.queue = i :: rest) (hc : c.toNat < s.params.nCables) (hi : sysexPacket? c i.cmd = some p) :
    step s = rxByKind (kindOf p) c (meaningful p) (s.accept i rest) := by
  rcases sysexPacket?_cases c i.cmd with ⟨hnone, -⟩ | ⟨q, hsome, hs, hcable, he⟩
  · rw [hi] at hnone; cases hnone
  rw [hi, Option.some.injEq] at hsome
  subst hsome
  have hcin : 2 ≤ (pktCin p).toNat := two_le_cin_of_kind_ne_reserved fun hk => by
    have hk' : kindOf p = .reserved := hk
    simp [isSysex, hk'] at hs
  rw [step_pending hq, he, exec_rxFrame_onCable _ hcin, hcable]
  exact onCable_of_lt _ hc

/-! ## A run over the pending inputs -/

/-- The sysex events of a cable over the run that takes every pending input. -/
def sysexRun (c : Nibble) (s : State) : List Event := sysexTrace c s.queue.length s

/-- The pending inputs hold no RESET, and of a cable the block has the sysex packets `ps`. -/
def Feeds (c : Nibble) (s : State) (ps : List Word32) : Prop :=
  c.toNat < s.params.nCables ∧ (∀ i ∈ s.queue, decode i.cmd ≠ .reset) ∧
    s.queue.filterMap (fun i => sysexPacket? c i.cmd) = ps

theorem Continues.feeds {c : Nibble} {s t : State} {i : StepInput} {rest : List StepInput} {ps : List Word32}
    (ht : Continues s t rest) (hq : s.queue = i :: rest) (hs : Feeds c s ps) :
    Feeds c t (rest.filterMap fun i => sysexPacket? c i.cmd) := by
  obtain ⟨hqueue, hparams⟩ := ht
  obtain ⟨hc, hreset, -⟩ := hs
  exact ⟨hparams ▸ hc, fun j hj => hreset j (hq ▸ List.mem_cons_of_mem i (hqueue ▸ hj)), by rw [hqueue]⟩

/-- A run without a sysex packet of the cable emits no event of it. -/
theorem sysexRun_nil {c : Nibble} {s : State} (h : Feeds c s []) : sysexRun c s = [] := by
  generalize hq : s.queue = q
  induction q generalizing s with
  | nil => simp [sysexRun, hq, sysexTrace, trace, eventsOf]
  | cons i rest ih =>
    obtain ⟨-, hreset, hps⟩ := id h
    rw [hq, List.filterMap_eq_nil_iff] at hps
    obtain ⟨t, -, ht, -, hrun⟩ := step_elsewhere hq (hreset i (by simp [hq])) (hps i (by simp)) rest.length
    have hrest : rest.filterMap (fun i => sysexPacket? c i.cmd) = [] :=
      List.filterMap_eq_nil_iff.2 fun j hj => hps j (List.mem_cons_of_mem i hj)
    have hih := ih (hrest ▸ ht.feeds hq h) ht.1
    rw [sysexRun, ht.1] at hih
    rw [sysexRun, hq, List.length_cons, hrun, hih]

/-- The first sysex packet of the cable in a run finds the reassembler as it is at the start, and the run goes on with the
packets after it. -/
theorem sysexRun_cons {c : Nibble} {s : State} {p : Word32} {ps : List Word32} (h : Feeds c s (p :: ps)) :
    ∃ s', s'.rxGet c = s.rxGet c ∧ ∀ t o, rxByKind (kindOf p) c (meaningful p) s' = .next t → t.out = some o →
      Feeds c t ps ∧ sysexRun c s = o.events.filter (Event.isSysexOf c) ++ sysexRun c t := by
  generalize hq : s.queue = q
  induction q generalizing s with
  | nil =>
    obtain ⟨-, -, hps⟩ := h
    simp [hq] at hps
  | cons i rest ih =>
    obtain ⟨hc, hreset, hps⟩ := id h
    rw [hq] at hps
    cases hi : sysexPacket? c i.cmd with
    | none =>
      simp only [List.filterMap_cons, hi] at hps
      obtain ⟨t, -, ht, hget, hrun⟩ := step_elsewhere hq (hreset i (by simp [hq])) hi rest.length
      obtain ⟨s', hs', hnext⟩ := ih (hps ▸ ht.feeds hq h) ht.1
      have hsame : sysexRun c s = sysexRun c t := by
        rw [sysexRun, hq, List.length_cons, hrun, sysexRun, ht.1]
      exact ⟨s', hs'.trans hget, fun t' o ht' ho => hsame ▸ hnext t' o ht' ho⟩
    | some q =>
      simp only [List.filterMap_cons, hi] at hps
      obtain ⟨rfl, hrest⟩ := List.cons_eq_cons.1 hps
      have hstep := step_sysexPacket hq hc hi
      refine ⟨s.accept i rest, rfl, fun t o ht ho => ?_⟩
      rw [ht] at hstep
      have hcont := step_continues hq hstep
      exact ⟨hrest ▸ hcont.feeds hq h,
        by rw [sysexRun, hq, List.length_cons, sysexTrace_succ hstep ho, sysexRun, hcont.1]⟩

/-! ## A session -/

theorem meaningful_length (p : Word32) : (meaningful p).length = cinCount (pktCin p) := by
  simp [meaningful, cinCount_le]

/-- How many bytes a packet of a sysex kind has (30_encoding.md R105, R106). -/
theorem meaningful_length_of_kind (p : Word32) :
    (kindOf p = .sxStart ∨ kindOf p = .sxCont → (meaningful p).length = 3) ∧
    (kindOf p = .sxEnd → 1 ≤ (meaningful p).length) ∧
    (kindOf p = .sxComplete → (meaningful p).length = 2 ∨ (meaningful p).length = 3) := by
  rw [meaningful_length, kindOf]
  generalize pktCin p = n
  generalize byteAt1 p = b
  revert n b; decide

/-- A start opens the session (41_receive.md R185). -/
theorem sysexRun_start {c : Nibble} {s : State} {p : Word32} {ps : List Word32} (h : Feeds c s (p :: ps))
    (hk : kindOf p = .sxStart) :
    ∃ t, Feeds c t ps ∧ (t.rxGet c).state = .receiving ∧
      (t.rxGet c).count = 1 + BitVec.ofNat 32 ((meaningful p).length - 1) ∧
      sysexRun c s = .sysexStart c :: .sysexData c ((meaningful p).drop 1) :: sysexRun c t := by
  obtain ⟨s', -, hnext⟩ := sysexRun_cons h
  rw [hk] at hnext
  obtain ⟨hfeeds, hrun⟩ := hnext _ _ (rxSxStart_eq c (meaningful p) s') rfl
  have hget := s'.rxGet_rxSet_same c
    ⟨.receiving, 1 + BitVec.ofNat 32 ((meaningful p).length - 1), tsTrunc s'.params s'.pins.now⟩
  exact ⟨_, hfeeds, congrArg RxSession.state hget, congrArg RxSession.count hget, by simp [hrun, Event.isSysexOf]⟩

/-- A continue of a session under way is counted and delivered (41_receive.md R186). -/
theorem sysexRun_cont {c : Nibble} {s : State} {p : Word32} {ps : List Word32} (h : Feeds c s (p :: ps))
    (hk : kindOf p = .sxCont) (hs : (s.rxGet c).state = .receiving) :
    ∃ t, Feeds c t ps ∧ (t.rxGet c).state = .receiving ∧
      (t.rxGet c).count = (s.rxGet c).count + BitVec.ofNat 32 (meaningful p).length ∧
      sysexRun c s = .sysexData c (meaningful p) :: sysexRun c t := by
  obtain ⟨s', hsame, hnext⟩ := sysexRun_cons h
  rw [← hsame] at hs ⊢
  rw [hk] at hnext
  obtain ⟨hfeeds, hrun⟩ := hnext _ _ (rxSxCont_receiving (meaningful p) hs) rfl
  have hget := s'.rxGet_rxSet_same c
    ⟨.receiving, (s'.rxGet c).count + BitVec.ofNat 32 (meaningful p).length, (s'.rxGet c).start⟩
  exact ⟨_, hfeeds, congrArg RxSession.state hget, congrArg RxSession.count hget, by simp [hrun, Event.isSysexOf]⟩

/-- The end of a session under way, with no sysex packet after it (41_receive.md R187). -/
theorem sysexRun_end {c : Nibble} {s : State} {p : Word32} (h : Feeds c s [p]) (hk : kindOf p = .sxEnd)
    (hs : (s.rxGet c).state = .receiving) :
    ∃ e, sysexRun c s = (if 1 < (meaningful p).length then [.sysexData c (meaningful p).dropLast] else []) ++
      [.sysexEnd c ((s.rxGet c).count + BitVec.ofNat 32 (meaningful p).length) e] := by
  obtain ⟨s', hsame, hnext⟩ := sysexRun_cons h
  rw [← hsame] at hs ⊢
  rw [hk] at hnext
  obtain ⟨hfeeds, hrun⟩ := hnext _ _ (rxSxEnd_receiving (meaningful p) hs) rfl
  rw [sysexRun_nil hfeeds, List.append_nil] at hrun
  refine ⟨tsTrunc s'.params (s'.pins.now - (s'.rxGet c).start), hrun.trans ?_⟩
  split <;> simp [Event.isSysexOf]

/-- A sysex in one packet, with none after it (41_receive.md R188). -/
theorem sysexRun_complete {c : Nibble} {s : State} {p : Word32} (h : Feeds c s [p]) (hk : kindOf p = .sxComplete) :
    sysexRun c s = .sysexStart c :: (if (meaningful p).length = 3 then [.sysexData c [(meaningful p).getD 1 0]] else []) ++
      [.sysexEnd c (BitVec.ofNat 32 (meaningful p).length) 0] := by
  obtain ⟨s', -, hnext⟩ := sysexRun_cons h
  rw [hk] at hnext
  obtain ⟨hfeeds, hrun⟩ := hnext _ _ (rxSxComplete_eq c (meaningful p) s') rfl
  rw [sysexRun_nil hfeeds, List.append_nil] at hrun
  exact hrun.trans (by split <;> simp [Event.isSysexOf])

theorem session_bytes_ne_nil {conts : List Word32} {q : Word32} (hq : kindOf q = .sxEnd) :
    (conts ++ [q]).flatMap meaningful ≠ [] := by
  obtain ⟨-, hend, -⟩ := meaningful_length_of_kind q
  have hne : meaningful q ≠ [] := List.ne_nil_of_length_pos (hend hq)
  simp [hne]

/-- While the reassembler is RECEIVING, the continues and the end of a session give back all their bytes but the last, and
the count of all of them. -/
theorem sysexRun_receiving {c : Nibble} {conts : List Word32} {q : Word32} {s : State} (h : Feeds c s (conts ++ [q]))
    (hconts : ∀ x ∈ conts, kindOf x = .sxCont) (hq : kindOf q = .sxEnd) (hs : (s.rxGet c).state = .receiving) :
    ∃ (datas : List (List Byte)) (e : Word64),
      sysexRun c s = datas.map (Event.sysexData c) ++
        [.sysexEnd c ((s.rxGet c).count + BitVec.ofNat 32 ((conts ++ [q]).flatMap meaningful).length) e] ∧
      datas.flatten = ((conts ++ [q]).flatMap meaningful).dropLast := by
  induction conts generalizing s with
  | nil =>
    obtain ⟨e, hrun⟩ := sysexRun_end h hq hs
    refine ⟨if 1 < (meaningful q).length then [(meaningful q).dropLast] else [], e, hrun.trans ?_, ?_⟩
    · split <;> simp
    · split
      case isTrue => simp
      case isFalse hone =>
        have hempty : (meaningful q).dropLast = [] := List.eq_nil_of_length_eq_zero (by simp; omega)
        simp [hempty]
  | cons x conts ih =>
    obtain ⟨hx, hconts'⟩ := List.forall_mem_cons.1 hconts
    obtain ⟨t, hfeeds, ht, hcount, hrun⟩ := sysexRun_cont h hx hs
    obtain ⟨datas, e, hrest, hdatas⟩ := ih hfeeds hconts' ht
    refine ⟨meaningful x :: datas, e, ?_, ?_⟩
    · rw [hrun, hrest, hcount]
      simp [BitVec.ofNat_add, BitVec.add_assoc]
    · rw [List.flatten_cons, hdatas, List.cons_append, List.flatMap_cons, 
        List.dropLast_append_of_ne_nil (session_bytes_ne_nil hq)]

/-- Settles O31: the start counts its three bytes and delivers two, or the one packet of a complete sysex does it all. -/
theorem aSessionEndsWithItsTotal : Obligations.ASessionEndsWithItsTotal := by
  rintro r c ps hc hreset hps hform
  have h : Feeds c r ps := ⟨hc, hreset, hps⟩
  show ∃ datas e, sysexRun c r = _ ∧ _
  rcases hform with ⟨p, conts, q, rfl, hp, hconts, hq⟩ | ⟨p, rfl, hp⟩
  · have hlen : (meaningful p).length = 3 := (meaningful_length_of_kind p).1 (.inl hp)
    obtain ⟨t, hfeeds, ht, hcount, hrun⟩ := sysexRun_start h hp
    obtain ⟨datas, e, hrest, hdatas⟩ := sysexRun_receiving hfeeds hconts hq ht
    rw [hlen] at hcount
    refine ⟨(meaningful p).drop 1 :: datas, e, ?total, ?data⟩
    case total =>
      have hthree : (1 : Word32) + BitVec.ofNat 32 (3 - 1) = BitVec.ofNat 32 3 := by decide
      rw [hrun, hrest, hcount, hthree, ← BitVec.ofNat_add, List.flatMap_cons, List.length_append, hlen]
      rfl
    case data =>
      rw [List.flatten_cons, hdatas, List.flatMap_cons, List.drop_append_of_le_length (by simp [hlen]),
        List.dropLast_append_of_ne_nil (session_bytes_ne_nil hq)]
  · obtain ⟨-, -, hlen⟩ := meaningful_length_of_kind p
    refine ⟨if (meaningful p).length = 3 then [[(meaningful p).getD 1 0]] else [], 0,
      (sysexRun_complete h hp).trans ?_, ?_⟩
    · split <;> simp
    · rcases hlen hp with hl | hl
      · obtain ⟨x, y, hxy⟩ := List.length_eq_two.1 hl
        simp [hxy]
      · obtain ⟨x, y, z, hxyz⟩ := List.length_eq_three.1 hl
        simp [hxyz]

end Sys2Proof.Machine
end

section
/-! PROOFS. TX_FIXED: EncodeFixed by first byte, the round trip of 40_codec.md section 4, and what the command and its rows
send (42_transmit.md R221). -/

namespace Sys2Proof.Machine

/-! ## The round trip of a fixed message -/

/-- Settles O16: the CIN EncodeFixed gives counts the bytes of the message. -/
theorem encodedMessagesDecodeBack : Obligations.EncodedMessagesDecodeBack := by
  intro c cin len b0 b1 b2 _ hlen h
  obtain ⟨hcount, -⟩ := encodeFixed_cin hlen h
  have hg : ([b0, b1, b2].take len).length = len := by simpa using hlen
  have hd := decode_pack c (hcount.trans hg.symm)
  rwa [hg] at hd

/-! ## TX_FIXED -/

/-- Settles O36: by the row. -/
theorem txFixedRunsItsStatusRow : Obligations.TxFixedRunsItsStatusRow :=
  fun c len b0 b1 b2 s => (exec_decodeFixed c len b0 b1 b2 s).symm

/-- Settles O35, by the cases of a fixed message: TX_FIXED's is the one EncodeFixed makes. -/
theorem txFixedSendsOneMessage : Obligations.TxFixedSendsOneMessage := by
  intro c len b0 b1 b2 s
  refine ⟨fun h => ?_, fun cin hc hm => ?_⟩
  · rw [exec_txFixed]
    exact sendMessage_invalid (h.imp_right fun hm => by rw [fixedMessage, hm]; rfl)
  · have hmsg : fixedMessage len.toNat b0 b1 b2 = some ⟨cin, [b0, b1, b2].take len.toNat⟩ := by rw [fixedMessage, hm]; rfl
    rw [exec_txFixed, hmsg]
    exact ⟨sendMessage_busy _ hc, sendMessage_sent _ hc, sendMessage_notSent _ hc⟩

/-! ## The status classes -/

/-- EncodeFixed of a first byte in a channel-voice range, by the class's CIN and length (40_codec.md R144 to R150). -/
theorem encodeFixed_of_nibble {len : Nat} {b0 b1 b2 : Byte} (hi : Nibble) (n : Nat) (hc : 8 ≤ hi.toNat ∧ hi ≠ 0xF)
    (hn : cinCount hi = n) (h : b0.extractLsb' 4 4 = hi) :
    encodeFixed len b0 b1 b2 = if len = n then some hi else none := by
  rw [encodeFixed_class h hc, hn]

/-- EncodeFixed of the only byte of a system row, which fixes the length (40_codec.md R152 to R155). -/
theorem encodeFixed_single (len : Nat) (b1 b2 : Byte) :
    encodeFixed len 0xF1 b1 b2 = (if len = 2 then some 0x2 else none) ∧
    encodeFixed len 0xF2 b1 b2 = (if len = 3 then some 0x3 else none) ∧
    encodeFixed len 0xF3 b1 b2 = (if len = 2 then some 0x2 else none) ∧
    encodeFixed len 0xF6 b1 b2 = (if len = 1 then some 0x5 else none) := by
  rcases len with _ | n
  · exact ⟨rfl, rfl, rfl, rfl⟩
  · exact ⟨rfl, rfl, rfl, rfl⟩

/-- Settles O32: each class is a high nibble or 0xF2, and its row is that fixed message. -/
theorem threeByteMessagesAreSent : Obligations.ThreeByteMessagesAreSent := by
  intro c b0 b1 b2 s
  obtain ⟨r8, r9, rA, rB, -, -, rE⟩ := channelRange_iff b0
  refine ⟨fun len => ?_, fun hc hs hk => ?_⟩
  · refine ⟨fun h => encodeFixed_of_nibble 0x8 3 (by decide) rfl (r8.1 h),
      fun h => encodeFixed_of_nibble 0x9 3 (by decide) rfl (r9.1 h),
      fun h => encodeFixed_of_nibble 0xA 3 (by decide) rfl (rA.1 h),
      fun h => encodeFixed_of_nibble 0xB 3 (by decide) rfl (rB.1 h),
      fun h => encodeFixed_of_nibble 0xE 3 (by decide) rfl (rE.1 h), ?_⟩
    rintro rfl
    exact (encodeFixed_single len b1 b2).2.1
  · have sent (x : FixedMessage) := sendMessage_sent x hc hs hk
    exact ⟨sent _, sent _, sent _, sent _, sent _, sent _⟩

/-- Settles O33: as for three bytes; Pack pads with zeros. -/
theorem shortMessagesAreSent : Obligations.ShortMessagesAreSent := by
  intro c b0 b1 b2 s
  obtain ⟨-, -, -, -, rC, rD, -⟩ := channelRange_iff b0
  refine ⟨fun len => ?_, fun hc hs hk => ?_⟩
  · obtain ⟨e1, -, e3, e6⟩ := encodeFixed_single len b1 b2
    refine ⟨fun h => encodeFixed_of_nibble 0xC 2 (by decide) rfl (rC.1 h),
      fun h => encodeFixed_of_nibble 0xD 2 (by decide) rfl (rD.1 h), ?_, ?_, ?_, encodeFixed_realtime⟩
    · rintro rfl; exact e1
    · rintro rfl; exact e3
    · rintro rfl; exact e6
  · have sent (x : FixedMessage) := sendMessage_sent x hc hs hk
    exact ⟨sent _, sent _, sent _, sent _, sent _, sent _⟩

/-- EncodeFixed of a first byte 0xF0 looks at the last byte (40_codec.md R151). -/
theorem encodeFixed_sysex {len : Nat} (hlen : len ≤ 3) (b1 b2 : Byte) :
    encodeFixed len 0xF0 b1 b2 =
      if (len = 2 ∧ b1 = 0xF7) ∨ (len = 3 ∧ b2 = 0xF7) then some (BitVec.ofNat 4 (4 + len)) else none := by
  interval_cases len <;> simp [encodeFixed]

/-- Settles O34: the rows send the message where its last byte is 0xF7. -/
theorem completeSysexMessagesAreSent : Obligations.CompleteSysexMessagesAreSent := by
  intro c b1 b2 s hc
  refine ⟨fun len hlen => encodeFixed_sysex hlen b1 b2, fun hs hk => ?_, fun hb => ?_, fun hb => ?_⟩
  · have sent (x : FixedMessage) := sendMessage_sent x hc hs hk
    exact ⟨sent _, sent _⟩
  · exact sendMessage_invalid (.inr (if_neg hb))
  · exact sendMessage_invalid (.inr (if_neg hb))

end Sys2Proof.Machine
end

section
/-! PROOFS. The numbers of results and events, the derived flags and the parameters (60_exceptions.md R280,
30_encoding.md R128, 10_state.md R33 and R34, 00_scope.md R12 to R16). -/

namespace Sys2Proof.Machine

/-- Settles O57: the codes as they are defined. -/
theorem resultAndEventNumbers : Obligations.ResultAndEventNumbers :=
  ⟨rfl, rfl, rfl, rfl, fun _ _ _ _ => ⟨rfl, rfl, rfl, rfl⟩⟩

/-- Settles O58, by the transmit state. -/
theorem busyAndOccupiedFollowTxState : Obligations.BusyAndOccupiedFollowTxState := by
  intro s
  rw [State.busy, State.txOccupied]
  cases s.txState <;> decide

/-- Settles O59: each bounded parameter is its least value and a distance from it. -/
theorem parametersTakeTheLegalValues : Obligations.ParametersTakeTheLegalValues := by
  refine ⟨fun p => ?range, fun n cap w u hn1 hn2 hc1 hc2 hw1 hw2 => ?all⟩
  case range =>
    have hcable := p.cableTop.isLt
    have hcap := p.capTop.isLt
    have hts := p.tsTop.isLt
    refine ⟨?_, ?_, rfl, ?_, ?_, ?_, ?_⟩ <;> simp only [Params.epMax, Params.nCables, Params.cap, Params.tsW] <;> omega
  case all =>
    refine ⟨⟨⟨n - 1, by omega⟩, ⟨cap - 1, by omega⟩, ⟨w - 1, by omega⟩, u⟩, ?_, ?_, ?_, rfl⟩ <;>
      simp only [Params.epMax, Params.nCables, Params.cap, Params.tsW] <;> omega

end Sys2Proof.Machine
end

section
/-! PROOFS. One transfer of the sysex chunker, and what stands on the wire (42_transmit.md sections 3 to 5, 30_encoding.md
section 1). -/

namespace Sys2Proof.Machine

/-! ## One transfer -/

/-- What a Fill that starts with bytes left does, with `bytes` sent (42_transmit.md R227, R228). -/
def Transfers (s t : State) (bytes : List Byte) : Prop :=
  t.txCable = s.txCable ∧ t.txLen = s.txLen ∧ t.txSrc = s.txSrc ∧
  t.txFill = min s.params.cap ((s.txLen.toNat - s.txPos.toNat + 2) / 3) ∧
  t.txPos.toNat = min s.txLen.toNat (s.txPos.toNat + 3 * s.params.cap) ∧
  bytes.length = 4 * t.txFill ∧
  (∀ a, a < 4 * t.txFill → t.txBuf.read a = bytes[a]?) ∧
  (∀ a, 4 * t.txFill ≤ a → t.txBuf.read a = s.txBuf.read a) ∧
  (if s.pins.sendOk = true then
    t.txState = (if s.txLen.toNat ≤ s.txPos.toNat + 3 * s.params.cap then .sxWaitLast else .sxWaitMid) ∧
    t.txLastResult = s.txLastResult ∧ t.held = s.held ++ [⟨.txBuf, t.txFill⟩] ∧
    t.out = some ⟨.ok, 0, [], some bytes⟩
  else
    t.txState = .idle ∧ t.txLastResult = .transportFailure ∧ t.held = s.held ∧
    t.out = some ⟨.transportFailure, 0, [], some bytes⟩) ∧
  t.rx = s.rx ∧ t.rxReservedCount = s.rxReservedCount ∧ t.rxDiscardCount = s.rxDiscardCount ∧ t.fxPkt = s.fxPkt ∧
  t.params = s.params ∧ t.queue = s.queue ∧ t.pins = s.pins ∧ t.srcMem = s.srcMem

theorem fill_transfers {s : State} (hleft : s.txPos.toNat < s.txLen.toNat) :
    ∃ t, s.fill = .next t ∧ Transfers s t (packetBytes s.filled) := by
  obtain ⟨m, p, final, e, -, -, hread, -, hstop⟩ := fill_spec s
  obtain ⟨hp, hfinal, hlen⟩ := hstop hleft
  have hin (a : Nat) (ha : a < 4 * s.filled.length) : m.read a = (packetBytes s.filled)[a]? := by rw [hread, if_pos ha]
  have hout (a : Nat) (ha : 4 * s.filled.length ≤ a) : m.read a = s.txBuf.read a := by
    rw [hread, if_neg (Nat.not_lt.2 ha)]
  refine ⟨_, e, ?_⟩
  cases hk : s.pins.sendOk with
  | false =>
    exact ⟨rfl, rfl, rfl, hlen, hp, packetBytes_length _, hin, hout, by simp [hk], rfl, rfl, rfl, rfl, rfl, rfl, rfl, rfl⟩
  | true =>
    refine ⟨rfl, rfl, rfl, hlen, hp, packetBytes_length _, hin, hout, ?_, rfl, rfl, rfl, rfl, rfl, rfl, rfl, rfl⟩
    rw [if_pos hk]
    exact ⟨by simp [hfinal], rfl, rfl, rfl⟩

/-- Settles O41: the transmit state says which case it is; resuming is a Fill. -/
theorem txCompleteEndsOrResumesATransfer : Obligations.TxCompleteEndsOrResumesATransfer := by
  intro s
  refine ⟨execTxComplete_idle, execTxComplete_fixed, execTxComplete_last, fun hmid hleft => ?_⟩
  obtain ⟨t, e, ht⟩ := fill_transfers (s := { s with held := s.held.tail }) hleft
  exact ⟨t, _, (execTxComplete_mid hmid).trans e, ht⟩

/-- Settles O40: an accepted TX_SYSEX is a Fill of the session it opens, with the cursor at 0. -/
theorem txSysexPacksAndSendsTheFirstTransfer : Obligations.TxSysexPacksAndSendsTheFirstTransfer := by
  intro c n s
  refine ⟨execTxSysex_invalid, execTxSysex_busy, fun hc hn hs => ?_⟩
  have hlen := framedLen_toNat hn
  have hleft : 0 < (n + 2).toNat := by omega
  obtain ⟨t, e, hcable, htlen, hsrc, hfill, hpos, hbytes, hin, hout, hanswer, hframe⟩ :=
    fill_transfers (s := s.openSession c (n + 2) s.pins.src) hleft
  have hzero : (s.openSession c (n + 2) s.pins.src).txPos.toNat = 0 := rfl
  rw [State.openSession_txLen, hlen, hzero, Nat.sub_zero] at hfill
  rw [State.openSession_txLen, hlen, hzero, Nat.zero_add] at hpos
  rw [State.openSession_txLen, hlen, hzero, Nat.zero_add] at hanswer
  exact ⟨t, _, (execTxSysex_fills hc hn hs).trans e, hcable, htlen, hsrc, hfill, hpos, hbytes, hin, hout, hanswer, hframe⟩

/-! ## The packets of one transfer -/

/-- With the payload in the bound source memory, a Fill packs the next packets of the framed stream (42_transmit.md R225 to
R227). -/
theorem filled_stream {payload : List Byte} {s : State} {base : Nat} (hlen : s.txLen.toNat = payload.length + 2)
    (hsrc : s.txSrc = some base) (hmem : ∀ k, k < payload.length → s.srcMem.read (base + k) = payload[k]?)
    (hleft : s.txPos.toNat < s.txLen.toNat) :
    s.filled = (sysexPackets s.txCable ((framedStream payload).drop s.txPos.toNat)).take s.params.cap :=
  fillPackets_stream s.params.cap (s := s.startFill) (by simp [framedStream, hlen])
    (framedByte_stream (s := s.startFill) hlen hsrc hmem) hleft

theorem payloadLen_toNat {n : Nat} (h : n ≤ 2 ^ 32 - 3) : (BitVec.ofNat 32 n).toNat = n :=
  Nat.mod_eq_of_lt (by omega)

/-- The length register of a session over a payload of N bytes (42_transmit.md R224). -/
theorem sessionLen_toNat {n : Nat} (h : n ≤ 2 ^ 32 - 3) : (BitVec.ofNat 32 n + 2).toNat = n + 2 := by
  have hn := payloadLen_toNat h
  rw [framedLen_toNat (hn.symm ▸ h), hn]

/-- A Fill sends its packets, whatever the transport answers. -/
theorem Transfers.sends {s t : State} {bytes : List Byte} (h : Transfers s t bytes) :
    ∃ o, t.out = some o ∧ o.send = some bytes := by
  obtain ⟨-, -, -, -, -, -, -, -, hanswer, -⟩ := h
  split at hanswer
  · exact ⟨_, hanswer.2.2.2, rfl⟩
  · exact ⟨_, hanswer.2.2.2, rfl⟩

/-- Settles O42: both commands are a Fill over the payload's stream. -/
theorem fillSendsTheNextPacketsOfTheStream : Obligations.FillSendsTheNextPacketsOfTheStream := by
  intro payload s hN
  refine ⟨fun c hc hs hmem => ?_, fun base hmid hlen hleft hsrc hmem => ?_⟩
  · have hlen := sessionLen_toNat hN
    let u := s.openSession c (BitVec.ofNat 32 payload.length + 2) s.pins.src
    have hleft : u.txPos.toNat < u.txLen.toNat := by
      show 0 < (BitVec.ofNat 32 payload.length + 2).toNat
      omega
    obtain ⟨t, e, ht⟩ := fill_transfers hleft
    obtain ⟨o, hout, hsend⟩ := ht.sends
    refine ⟨t, o, (execTxSysex_fills hc ((payloadLen_toNat hN).symm ▸ hN) hs).trans e, hout, ?_⟩
    rw [hsend, filled_stream (s := u) hlen rfl hmem hleft]
    rfl
  · obtain ⟨t, e, ht⟩ := fill_transfers (s := { s with held := s.held.tail }) hleft
    obtain ⟨o, hout, hsend⟩ := ht.sends
    refine ⟨t, o, (execTxComplete_mid hmid).trans e, hout, ?_⟩
    rw [hsend, filled_stream (s := { s with held := s.held.tail }) hlen hsrc hmem hleft]

/-! ## Packets on the wire -/

/-- A packet on one of the block's cables, with a CIN of a message or a sysex group, and zeros past its meaningful bytes
(30_encoding.md R101, R102, R106). -/
def SentPacket (params : Params) (p : Packet) : Prop :=
  p.decode.cable.toNat < params.nCables ∧
    p.decode.cin ≠ 0x0 ∧ p.decode.cin ≠ 0x1 ∧ p.decode.cin ≠ 0xF ∧
    [p.b1, p.b2, p.b3] = p.decode.d ++ List.replicate (3 - p.decode.n) 0

theorem sentPacket_pack {params : Params} {c cin : Nibble} {g : List Byte} (hc : c.toNat < params.nCables)
    (hcin : cin ≠ 0x0 ∧ cin ≠ 0x1 ∧ cin ≠ 0xF) (hn : cinCount cin = g.length) : SentPacket params (pack c cin g) := by
  have hg : g.length ≤ 3 := hn ▸ cinCount_le cin
  obtain ⟨h0, h1, hF⟩ := hcin
  rw [SentPacket, decode_pack c hn]
  exact ⟨hc, h0, h1, hF, pack_data c cin hg⟩

/-- The CINs of the groups of a stream (40_codec.md R159). -/
theorem groupCin {k : Nat} {final : Bool} (h1 : 1 ≤ k) (h3 : k ≤ 3) (hf : final = false → k = 3) :
    let cin : Nibble := if final then BitVec.ofNat 4 (4 + k) else 0x4
    (cin ≠ 0x0 ∧ cin ≠ 0x1 ∧ cin ≠ 0xF) ∧ cinCount cin = k := by
  cases final with
  | false => rw [hf rfl]; decide
  | true => interval_cases k <;> decide

/-- Every packet of a Fill that starts with bytes left. -/
theorem sentPacket_filled {s : State} (hc : s.txCable.toNat < s.params.nCables) (hleft : s.txPos.toNat < s.txLen.toNat) :
    ∀ p ∈ s.filled, SentPacket s.params p := by
  intro p hp
  obtain ⟨g, final, rfl, h1, h3, hf⟩ := fillPackets_mem s.params.cap s.startFill hleft p hp
  obtain ⟨hcin, hn⟩ := groupCin h1 h3 hf
  exact sentPacket_pack hc hcin hn

/-- The transfer is 1 to CAP packets fit for the wire. -/
def SentTransfer (params : Params) (bytes : List Byte) : Prop :=
  ∃ ps : List Packet, bytes = packetBytes ps ∧ 1 ≤ ps.length ∧ ps.length ≤ params.cap ∧ ∀ p ∈ ps, SentPacket params p

theorem sentTransfer_fixed {params : Params} {c : Nibble} {x : FixedMessage} (hc : c.toNat < params.nCables)
    (hx : x.bytes.length = cinCount x.cin ∧ x.cin ≠ 0x0 ∧ x.cin ≠ 0x1 ∧ x.cin ≠ 0xF) :
    SentTransfer params (pack c x.cin x.bytes).bytes := by
  obtain ⟨hn, hcin⟩ := hx
  refine ⟨[pack c x.cin x.bytes], by simp, Nat.le_refl 1, Params.cap_pos params, ?_⟩
  rintro p (_ | ⟨_, ⟨⟩⟩)
  exact sentPacket_pack hc hcin hn.symm

theorem FillEffect.sentTransfer {s t : State} (h : FillEffect s t) (hc : s.txCable.toNat < s.params.nCables)
    (hleft : s.txPos.toNat < s.txLen.toNat) {o : Outputs} {bytes : List Byte} (ho : t.out = some o)
    (hs : o.send = some bytes) : SentTransfer s.params bytes := by
  obtain ⟨h1, hcap⟩ := s.filled_length
  have hsent : bytes = packetBytes s.filled := by
    rcases h.answers with ⟨-, hout, -⟩ | ⟨-, hout, -⟩ <;> rw [hout] at ho <;> cases ho <;> cases hs <;> rfl
  exact ⟨s.filled, hsent, h1, hcap, sentPacket_filled hc hleft⟩

theorem exec_sentTransfer {i : Instr} {s t : State} {o : Outputs} {bytes : List Byte} (hs : s.Inv)
    (h : exec i s = .next t) (ho : t.out = some o) (hb : o.send = some bytes) : SentTransfer s.params bytes := by
  cases exec_effect h with
  | fixedSent c x _ _ _ _ hc hx => cases ho; cases hb; exact sentTransfer_fixed hc hx
  | fixedRefused c x _ _ _ _ hc hx => cases ho; cases hb; exact sentTransfer_fixed hc hx
  | resumed _ _ hmid hfill => exact hfill.sentTransfer hs.cable_lt (hs.mid hmid).1 ho hb
  | opened _ c n _ hc hn _ hfill =>
    refine hfill.sentTransfer hc ?_ ho hb
    rw [State.openSession_txLen, framedLen_toNat hn]
    exact Nat.succ_pos _
  | _ => cases ho; cases hb

/-- Settles O45: a step with no command pending sends nothing, and a command's transfer is a fixed message's packet or a
Fill's packets. -/
theorem sentPacketsAreWellFormed : Obligations.SentPacketsAreWellFormed := by
  intro s t o bytes hs h ho hb
  cases hq : s.queue with
  | nil =>
    rw [step_idle hq] at h
    cases h
    cases ho
  | cons i rest =>
    rw [step_pending hq] at h
    exact exec_sentTransfer (s := s.accept i rest) (hs.accept i rest) h ho hb

end Sys2Proof.Machine
end

section
/-! PROOFS. A sysex session over a run, and the round trip to a reassembler (42_transmit.md sections 4 to 6). -/

namespace Sys2Proof.Machine

/-! ## A session over a run -/

/-- The bytes of the transfer that starts after `k` full ones (42_transmit.md R227). -/
def transferBytes (c : Nibble) (payload : List Byte) (cap k : Nat) : List Byte :=
  packetBytes (((sysexPackets c (framedStream payload)).drop (cap * k)).take cap)

/-- The block is in the session of a payload, with `k` full transfers or the whole stream packed. -/
structure InSession (c : Nibble) (payload : List Byte) (base k : Nat) (s : State) : Prop where
  cable : s.txCable = c
  len : s.txLen.toNat = payload.length + 2
  src : s.txSrc = some base
  mem : ∀ j, j < payload.length → s.srcMem.read (base + j) = payload[j]?
  pos : s.txPos.toNat = min (payload.length + 2) (3 * (s.params.cap * k))
  state : s.txState = if payload.length + 2 ≤ 3 * (s.params.cap * k) then .sxWaitLast else .sxWaitMid

/-- A Fill that finds `k` full transfers packed and bytes left sends the next one. -/
theorem fill_inSession {c : Nibble} {payload : List Byte} {base k : Nat} {s : State} (hcable : s.txCable = c)
    (hlen : s.txLen.toNat = payload.length + 2) (hsrc : s.txSrc = some base)
    (hmem : ∀ j, j < payload.length → s.srcMem.read (base + j) = payload[j]?)
    (hpos : s.txPos.toNat = 3 * (s.params.cap * k)) (hleft : 3 * (s.params.cap * k) < payload.length + 2)
    (hk : s.pins.sendOk = true) :
    ∃ t, s.fill = .next t ∧ InSession c payload base (k + 1) t ∧ t.params = s.params ∧ t.queue = s.queue ∧
      t.out = some ⟨.ok, 0, [], some (transferBytes c payload s.params.cap k)⟩ := by
  have hleft' : s.txPos.toNat < s.txLen.toNat := by omega
  have hpackets := filled_stream hlen hsrc hmem hleft'
  rw [hpos, sysexPackets_drop _ _ _ (by simp [framedStream]; omega), hcable] at hpackets
  obtain ⟨t, e, htcable, htlen, htsrc, -, htpos, -, -, -, hanswer, -, -, -, -, hparams, hqueue, -, hsrcMem⟩ :=
    fill_transfers hleft'
  rw [if_pos hk, hlen, hpos] at hanswer
  obtain ⟨hstate, -, -, hout⟩ := hanswer
  rw [hpackets] at hout
  refine ⟨t, e, ⟨htcable.trans hcable, htlen ▸ hlen, htsrc.trans hsrc, hsrcMem ▸ hmem, ?_, ?_⟩, hparams, hqueue, hout⟩
  · rw [htpos, hlen, hpos, hparams, Nat.mul_add, Nat.mul_one, Nat.mul_add]
  · rw [hstate, hparams, Nat.mul_add, Nat.mul_one, Nat.mul_add]

/-- A session takes T = ceil(P / CAP) transfers: the stream is packed after `k` of them from k = T on
(42_transmit.md section 4). -/
theorem transfers_le_iff {n cap k : Nat} (hcap : 0 < cap) :
    ((n + 4) / 3 + cap - 1) / cap ≤ k ↔ n + 2 ≤ 3 * (cap * k) := by
  rw [Nat.div_le_iff_le_mul_add_pred hcap]
  generalize cap * k = m
  omega

theorem trace_send_succ {s t : State} {o : Outputs} (n : Nat) (h : step s = .next t) (ho : t.out = some o) :
    (trace (n + 1) s).map (·.send) = o.send :: (trace n t).map (·.send) := by
  simp [trace_succ n h, ho]

/-- The `k`-th of a list of transfers, and the ones after it. -/
theorem cons_map_range_append {α : Type} (f : Nat → α) (k m : Nat) (l : List α) :
    f k :: ((List.range m).map (fun j => f (k + 1 + j)) ++ l) = (List.range (m + 1)).map (fun j => f (k + j)) ++ l := by
  rw [List.range_succ_eq_map, List.map_cons, List.map_map]
  simp [Function.comp_def, Nat.add_assoc, Nat.add_comm 1]

/-- The inputs to come are completions, with every send accepted and the source left alone. -/
def Completions (js : List StepInput) : Prop :=
  ∀ j ∈ js, decode j.cmd = .txComplete ∧ j.pins.sendOk = true ∧ j.hostWrites = []

/-- Taking an input without host writes leaves a session as it is. -/
theorem InSession.accept {c : Nibble} {payload : List Byte} {base k : Nat} {s : State}
    (hs : InSession c payload base k s) {j : StepInput} (rest : List StepInput) (hw : j.hostWrites = []) :
    InSession c payload base k (s.accept j rest) := by
  refine { hs with mem := fun i hi => ?_ }
  rw [State.accept_srcMem, hw, Memory.writeAll_nil]
  exact hs.mem i hi

/-- The rest of a session of T transfers after `k` of them: a completion sends each of the others, and the last one ends
the session with OK. -/
theorem session_rest {c : Nibble} {payload : List Byte} {base k T : Nat} {s : State} {js : List StepInput}
    (hs : InSession c payload base k s) (hq : s.queue = js) (hjs : Completions js)
    (hT : ∀ k, T ≤ k ↔ payload.length + 2 ≤ 3 * (s.params.cap * k)) (hlength : js.length + k = T + 1) (hk : k ≤ T) :
    (trace js.length s).map (·.send) =
      (List.range (js.length - 1)).map (fun j => some (transferBytes c payload s.params.cap (k + j))) ++ [none] ∧
    ∃ t, Host.Core.run core js.length s = .next t ∧ t.txState = .idle ∧ t.txLastResult = .ok := by
  induction js generalizing s k with
  | nil => simp only [List.length_nil] at hlength; omega
  | cons j js ih =>
    obtain ⟨⟨hdecode, hsend, hwrites⟩, hjs'⟩ := List.forall_mem_cons.1 hjs
    have hu := hs.accept js hwrites
    have hstep : step s = execTxComplete (s.accept j js) := by
      rw [step_pending hq, hdecode]
      rfl
    by_cases hlast : T ≤ k
    case pos =>
      have hstate : (s.accept j js).txState = .sxWaitLast := hu.state.trans (if_pos ((hT k).1 hlast))
      rw [execTxComplete_last hstate] at hstep
      have hjs0 : js = [] := List.eq_nil_of_length_eq_zero (by simp only [List.length_cons] at hlength; omega)
      subst hjs0
      exact ⟨trace_send_succ 0 hstep rfl, _, run_succ 0 hstep, rfl, rfl⟩
    case neg =>
      have hleft : ¬payload.length + 2 ≤ 3 * (s.params.cap * k) := fun h => hlast ((hT k).2 h)
      have hstate : (s.accept j js).txState = .sxWaitMid := hu.state.trans (if_neg hleft)
      obtain ⟨t, hfill, ht, hparams, hqueue, hout⟩ :=
        fill_inSession (k := k) (s := { s.accept j js with held := (s.accept j js).held.tail }) hu.cable hu.len hu.src hu.mem
          (hu.pos.trans (Nat.min_eq_right (Nat.le_of_not_le hleft))) (Nat.lt_of_not_le hleft) hsend
      rw [execTxComplete_mid hstate, hfill] at hstep
      have hcap : t.params.cap = s.params.cap := congrArg Params.cap hparams
      obtain ⟨htrace, u, hrun, hidle, hresult⟩ :=
        ih ht hqueue hjs' (hcap ▸ hT) (by simp only [List.length_cons] at hlength; omega) (by omega)
      refine ⟨?_, u, (run_succ _ hstep).trans hrun, hidle, hresult⟩
      obtain ⟨m, hm⟩ : ∃ m, js.length = m + 1 := ⟨js.length - 1, by simp only [List.length_cons] at hlength; omega⟩
      rw [List.length_cons, trace_send_succ _ hstep hout, htrace, hcap, hm, Nat.add_sub_cancel, Nat.add_sub_cancel]
      exact cons_map_range_append (fun k => some (transferBytes c payload s.params.cap k)) k m [none]

/-- An accepted TX_SYSEX sends the first transfer of its payload's session. -/
theorem txSysex_inSession {c : Nibble} {payload : List Byte} {s : State} (hN : payload.length ≤ 2 ^ 32 - 3)
    (hc : c.toNat < s.params.nCables) (hs : s.txState = .idle) (hk : s.pins.sendOk = true)
    (hmem : ∀ j, j < payload.length → s.srcMem.read (s.pins.src + j) = payload[j]?) :
    ∃ t, exec (.txSysex c (BitVec.ofNat 32 payload.length)) s = .next t ∧ InSession c payload s.pins.src 1 t ∧
      t.params = s.params ∧ t.queue = s.queue ∧
      t.out = some ⟨.ok, 0, [], some (transferBytes c payload s.params.cap 0)⟩ := by
  obtain ⟨t, e, ht⟩ := fill_inSession (k := 0) (s := s.openSession c (BitVec.ofNat 32 payload.length + 2) s.pins.src) rfl
    (sessionLen_toNat hN) rfl hmem rfl (Nat.succ_pos _) hk
  exact ⟨t, (execTxSysex_fills hc ((payloadLen_toNat hN).symm ▸ hN) hs).trans e, ht⟩

/-- Settles O43: the first transfer opens the session, and the completions send the rest. -/
theorem aSessionSendsTheFramedStream : Obligations.ASessionSendsTheFramedStream := by
  intro s i js c payload hN hc hs hq hdecode hjs hinputs hmem hlength
  obtain ⟨⟨hsend, hwrites⟩, hinputs'⟩ := List.forall_mem_cons.1 hinputs
  have hcap := Params.cap_pos s.params
  have hT (k : Nat) := transfers_le_iff (n := payload.length) (k := k) hcap
  rw [← hlength] at hT
  have hmem' : (s.accept i js).srcMem = s.srcMem := by rw [State.accept_srcMem, hwrites, Memory.writeAll_nil]
  obtain ⟨t, hexec, ht, hparams, hqueue, hout⟩ :=
    txSysex_inSession (s := s.accept i js) hN hc hs hsend (hmem'.symm ▸ hmem)
  have hstep : step s = .next t := by rw [step_pending hq, hdecode, hexec]
  have htcap : t.params.cap = s.params.cap := congrArg Params.cap hparams
  have hone : 1 ≤ js.length := Nat.pos_of_ne_zero fun h0 => by have := (hT 0).1 (Nat.le_of_eq h0); omega
  obtain ⟨htrace, u, hrun, hend⟩ :=
    session_rest (js := js) ht hqueue (fun j hj => ⟨hjs j hj, hinputs' j hj⟩) (htcap ▸ hT) rfl hone
  refine ⟨?packets, ?transfers, u, (run_succ _ hstep).trans hrun, hend⟩
  case packets =>
    rw [sysexPackets_length]
    simp [framedStream]
  case transfers =>
    obtain ⟨m, hm⟩ : ∃ m, js.length = m + 1 := ⟨js.length - 1, by omega⟩
    rw [trace_send_succ _ hstep hout, htrace, htcap, hm, Nat.add_sub_cancel]
    have hrange := cons_map_range_append (fun k => some (transferBytes c payload s.params.cap k)) 0 m [none]
    simp only [Nat.zero_add] at hrange
    exact hrange

/-! ## The round trip -/

theorem packetBytes_injective {ps qs : List Packet} (h : packetBytes ps = packetBytes qs) : ps = qs := by
  induction ps generalizing qs with
  | nil =>
    cases qs with
    | nil => rfl
    | cons q qs => simp [Packet.bytes] at h
  | cons p ps ih =>
    cases qs with
    | nil => simp [Packet.bytes] at h
    | cons q qs =>
      have happend : p.bytes ++ packetBytes ps = q.bytes ++ packetBytes qs := h
      obtain ⟨hp, hps⟩ := List.append_inj happend rfl
      obtain ⟨p0, p1, p2, p3⟩ := p
      obtain ⟨q0, q1, q2, q3⟩ := q
      simp only [Packet.bytes, List.cons.injEq, and_true] at hp
      obtain ⟨rfl, rfl, rfl, rfl⟩ := hp
      rw [ih hps]

theorem packetBytes_append (ps qs : List Packet) : packetBytes (ps ++ qs) = packetBytes ps ++ packetBytes qs :=
  List.flatMap_append

/-- Transfers of `cap` packets each, one after the other, are the first packets. -/
theorem flatMap_transfers (ps : List Packet) (cap n : Nat) :
    (List.range n).flatMap (fun k => packetBytes ((ps.drop (cap * k)).take cap)) = packetBytes (ps.take (cap * n)) := by
  induction n with
  | zero => simp
  | succ n ih =>
    rw [List.range_succ, List.flatMap_append, ih, List.flatMap_singleton, ← packetBytes_append, Nat.mul_succ, List.take_add]

theorem sentBytes_eq (os : List Outputs) : sentBytes os = (os.map (·.send)).flatMap (·.getD []) := by
  simp [sentBytes, List.flatMap_map]

/-- The transfers of a session, end to end, are the packets of the framed stream. -/
theorem session_sentBytes {c : Nibble} {payload : List Byte} {cap n : Nat} {os : List Outputs}
    (hn : (payload.length + 4) / 3 ≤ cap * n)
    (h : os.map (·.send) = (List.range n).map (fun k => some (packetBytes
      (((sysexPackets c (framedStream payload)).drop (cap * k)).take cap))) ++ [none]) :
    sentBytes os = packetBytes (sysexPackets c (framedStream payload)) := by
  have hlen : (sysexPackets c (framedStream payload)).length ≤ cap * n := by
    rw [sysexPackets_length]; simpa [framedStream] using hn
  rw [sentBytes_eq, h, List.flatMap_append, List.flatMap_map]
  simp [flatMap_transfers, List.take_of_length_le hlen]

/-! ### What the reassembler sees -/

theorem toWord_eq_pktWord (c n : Nibble) (x y z : Byte) : Packet.toWord ⟨c ++ n, x, y, z⟩ = pktWord c n x y z := rfl

theorem kindOf_pktWord (c n : Nibble) (x y z : Byte) : kindOf (pktWord c n x y z) = kind n x := by
  simp [kindOf]

theorem meaningful_pktWord (c n : Nibble) (x y z : Byte) :
    meaningful (pktWord c n x y z) = [x, y, z].take (cinCount n) := by
  simp [meaningful]

/-- The packets of a stream carry its bytes. -/
theorem flatMap_meaningful_sysexPackets (c : Nibble) (S : List Byte) :
    ((sysexPackets c S).map Packet.toWord).flatMap meaningful = S := by
  induction S using sysexPackets.induct with
  | case1 => rfl
  | case2 | case3 | case4 => simp [sysexPackets, toWord_eq_pktWord, meaningful_pktWord, cinCount]
  | case5 x y z rest hr ih =>
    rw [sysexPackets, List.map_cons, List.flatMap_cons, ih, toWord_eq_pktWord, meaningful_pktWord]
    · rfl
    · simpa using hr

/-- After its first three bytes, a stream that ends in 0xF7 and has no 0xF0 at the start of a group is sent in continues and
one end. -/
theorem kinds_of_tail {c : Nibble} {S : List Byte} (hne : S ≠ []) (hlast : S.getLast? = some 0xF7)
    (hF0 : ∀ k, S[3 * k]? ≠ some 0xF0) :
    ∃ conts q, (sysexPackets c S).map Packet.toWord = conts ++ [q] ∧ (∀ x ∈ conts, kindOf x = .sxCont) ∧
      kindOf q = .sxEnd := by
  induction S using sysexPackets.induct with
  | case1 => exact absurd rfl hne
  | case2 x => 
    obtain rfl : x = 0xF7 := by simpa using hlast
    exact ⟨[], _, rfl, by simp, kindOf_pktWord c 0x5 0xF7 0 0⟩
  | case3 x y =>
    have hx : x ≠ 0xF0 := by simpa using hF0 0
    exact ⟨[], _, rfl, by simp, (kindOf_pktWord c 0x6 x y 0).trans (if_neg hx)⟩
  | case4 x y z =>
    have hx : x ≠ 0xF0 := by simpa using hF0 0
    exact ⟨[], _, rfl, by simp, (kindOf_pktWord c 0x7 x y z).trans (if_neg hx)⟩
  | case5 x y z rest hr ih =>
    have hx : x ≠ 0xF0 := by simpa using hF0 0
    have hrest : rest ≠ [] := by simpa using hr
    have hend : rest.getLast? = some 0xF7 := List.getLast?_append_of_ne_nil [x, y, z] hrest ▸ hlast
    obtain ⟨conts, q, hmap, hconts, hq⟩ := ih hrest hend fun k => by simpa [Nat.mul_succ] using hF0 (k + 1)
    refine ⟨pktWord c 0x4 x y z :: conts, q, ?_, ?_, hq⟩
    · rw [sysexPackets_more c x y z hrest, List.map_cons, hmap]
      rfl
    · exact List.forall_mem_cons.2 ⟨(kindOf_pktWord c 0x4 x y z).trans (if_neg hx), hconts⟩

/-- The packets of a framed stream are a session for the reassembler: one complete sysex, or a start, continues and an end
(41_receive.md section 3). -/
theorem framedStream_session (c : Nibble) {payload : List Byte}
    (hF0 : ∀ k, k < payload.length → k % 3 = 2 → payload[k]? ≠ some 0xF0) :
    let ps := (sysexPackets c (framedStream payload)).map Packet.toWord
    (∃ p conts q, ps = p :: (conts ++ [q]) ∧ kindOf p = .sxStart ∧ (∀ x ∈ conts, kindOf x = .sxCont) ∧ kindOf q = .sxEnd) ∨
      ∃ p, ps = [p] ∧ kindOf p = .sxComplete := by
  match payload with
  | [] => exact .inr ⟨_, rfl, kindOf_pktWord c 0x6 0xF0 0xF7 0⟩
  | [x] => exact .inr ⟨_, rfl, kindOf_pktWord c 0x7 0xF0 x 0xF7⟩
  | x :: y :: rest =>
    obtain ⟨conts, q, hmap, hconts, hq⟩ := kinds_of_tail (c := c) (S := rest ++ [0xF7]) (by simp) (by simp) fun k h => by
      rcases Nat.lt_or_ge (3 * k) rest.length with hk | hk
      · rw [List.getElem?_append_left hk] at h
        exact hF0 (3 * k + 2) (by simp; omega) (by omega) h
      · rw [List.getElem?_append_right hk, List.getElem?_singleton] at h
        split at h <;> simp at h
    refine .inl ⟨pktWord c 0x4 0xF0 x y, conts, q, ?_, kindOf_pktWord c 0x4 0xF0 x y, hconts, hq⟩
    show (sysexPackets c (0xF0 :: x :: y :: (rest ++ [0xF7]))).map Packet.toWord = _
    rw [sysexPackets_more c 0xF0 x y (by simp), List.map_cons, hmap]
    rfl

/-- Settles O44: the transfers are the packets of the framed stream, which the reassembler takes as one session; its bytes
without the two markers are the payload. -/
theorem sysexRoundTrip : Obligations.SysexRoundTrip := by
  intro s i js r packets c payload hN hc hs hq hdecode hjs hinputs hmem hlength hF0 hcr hreset hsent hfeeds
  obtain ⟨-, htrace, -⟩ := aSessionSendsTheFramedStream s i js c payload hN hc hs hq hdecode hjs hinputs hmem hlength
  have hn : (payload.length + 4) / 3 ≤ s.params.cap * js.length := by
    have := (transfers_le_iff (n := payload.length) (Params.cap_pos s.params)).1 (Nat.le_of_eq hlength.symm)
    omega
  have hpackets := packetBytes_injective (hsent.symm.trans (session_sentBytes hn htrace))
  rw [hpackets] at hfeeds
  obtain ⟨datas, e, hevents, hdatas⟩ :=
    aSessionEndsWithItsTotal r c _ hcr hreset hfeeds (framedStream_session c hF0)
  rw [flatMap_meaningful_sysexPackets] at hevents hdatas
  refine ⟨datas, e, ?_, ?_⟩
  · rw [hevents]
    simp [framedStream]
  · rw [hdatas]
    simp [framedStream]

end Sys2Proof.Machine
end
